-- ==== Sys2Proof/Word.lean ====
section
/-! DEFINITION. The word types of the block: every width is fixed by 00_scope.md R9. -/

namespace Sys2Proof

/-- A byte: an 8-bit unsigned value, bit `i` of weight `2^i` (R10, R31). -/
abbrev Byte := BitVec 8

/-- A raw measurement: 16 bits, unsigned (R9). -/
abbrev Half := BitVec 16

/-- A binary32 bit pattern: sign bit 31, biased exponent 30:23, fraction 22:0 (R57). -/
abbrev F32 := BitVec 32

/-- The packed frame on the input port `frame_in`: 80 bits (R20, R45). -/
abbrev FrameWord := BitVec 80

end Sys2Proof
end

