-- ==== Sys2Proof/Config.lean ====
section
/-! DEFINITION. The fixed constants of the block (10_state.md R19) and its two OPEN parameters (00_scope.md R9,
70_reset_and_hazards.md R99), which have no value here, so that no proof can lean on one. -/

namespace Sys2Proof.Config

/-- HEADER: the required value of `frame[0]` (R19). -/
def header : Byte := 0xAA

/-- COMMAND: the required value of `frame[1]`, "active-mode push" (R19). -/
def command : Byte := 0xC0

/-- TAIL: the required value of `frame[9]` (R19). -/
def tail : Byte := 0xAB

/-- CSUM_MOD: the modulus of the checksum (R19). -/
def csumMod : Nat := 256

/-- SCALE: the binary32 pattern of 10.0, the divisor of each raw value (R19). The pattern is the spec's general
knowledge K6. -/
def scale : F32 := 0x41200000

/-- `LATENCY`, the number of clock cycles from a frame's acceptance to its result (R9, R26): OPEN, so a constant with
no body (log 1). Only `State.reset` reads it: a state's own latency is the number of its pipeline slots. -/
opaque latency : Nat

/-- The electrical form of reset (R99): its active level, whether it is synchronous, its minimum pulse length. -/
structure ResetKind where
  activeHigh    : Bool
  synchronous   : Bool
  minimumPulse  : Nat
  deriving DecidableEq, Repr, Inhabited

/-- `RESET_KIND` (R99): OPEN, and unobservable in the transaction model, so nothing reads it (log 2). -/
opaque resetKind : ResetKind

end Sys2Proof.Config
end

