-- ==== Sys2Proof/Syntax.lean ====
section
/-! DEFINITION. The frame and the operations of the block: one constructor of `Instr` for each row of
spec/opcode_table.json. An "instruction" is one of the block's operations (00_scope.md R2). -/

namespace Sys2Proof

/-- One fixed 10-byte frame, a field for each offset of the window (20_memory.md R29). -/
structure Frame where
  /-- offset 0 -/
  header   : Byte
  /-- offset 1 -/
  command  : Byte
  /-- offset 2 -/
  pm25Lo   : Byte
  /-- offset 3 -/
  pm25Hi   : Byte
  /-- offset 4 -/
  pm10Lo   : Byte
  /-- offset 5 -/
  pm10Hi   : Byte
  /-- offset 6, reserved -/
  res0     : Byte
  /-- offset 7, reserved -/
  res1     : Byte
  /-- offset 8 -/
  checksum : Byte
  /-- offset 9 -/
  tail     : Byte
  deriving DecidableEq, Repr

/-- The ten bytes in offset order, the source's own notation for a frame (R58). -/
def Frame.bytes (f : Frame) : List Byte :=
  [f.header, f.command, f.pm25Lo, f.pm25Hi, f.pm10Lo, f.pm10Hi, f.res0, f.res1, f.checksum, f.tail]

/-- `frame[k]`, the byte at offset `k` (R11, R28). -/
def Frame.byte (f : Frame) : Fin 10 → Byte
  | 0 => f.header
  | 1 => f.command
  | 2 => f.pm25Lo
  | 3 => f.pm25Hi
  | 4 => f.pm10Lo
  | 5 => f.pm10Hi
  | 6 => f.res0
  | 7 => f.res1
  | 8 => f.checksum
  | 9 => f.tail

/-- The block's operations, each with the operands its rule gives it. Only the first two are selected by an input
(R49); the other seven are internal and run as steps of the first (R55). -/
inductive Instr where
  /-- DECODE of a frame whose sync bytes match (R61). -/
  | decode (frame : Frame)
  /-- DECODE of any other frame (R64). -/
  | decodeSyncBad (frame : Frame)
  /-- SYNC_CHECK (R62). -/
  | syncCheck (frame : Frame)
  /-- CSUM8 (R69). -/
  | csum8 (frame : Frame)
  /-- CSUM_CMP (R70). -/
  | csumCmp (frame : Frame)
  /-- LE16 (R74). -/
  | le16 (lo hi : Byte)
  /-- EXTRACT_PM25 (R75). -/
  | extractPm25 (frame : Frame)
  /-- EXTRACT_PM10 (R76). -/
  | extractPm10 (frame : Frame)
  /-- SCALE10 (R77). -/
  | scale10 (raw : Half)
  deriving DecidableEq, Repr

/-- The formats of the opcode table: FRAME80 is an 80-bit input, INTERNAL has no encoding (R45, R55). -/
inductive Format where
  | frame80
  | internal
  deriving DecidableEq, Repr

/-- The format of each operation, as the opcode table gives it. -/
def Instr.format : Instr → Format
  | .decode _ => .frame80
  | .decodeSyncBad _ => .frame80
  | .syncCheck _ => .internal
  | .csum8 _ => .internal
  | .csumCmp _ => .internal
  | .le16 _ _ => .internal
  | .extractPm25 _ => .internal
  | .extractPm10 _ => .internal
  | .scale10 _ => .internal

end Sys2Proof
end

