-- ==== Sys2Proof/Machine/State.lean ====
section
/-! DEFINITION. The state of the block, as plain data. The block has no architectural state (10_state.md R15 to R18); what
there is to hold is its pipeline (R26), its ports (R20, R21) and, for the internal operations run by themselves, the value
they hand on (40_frame_validator.md R68). -/

namespace Sys2Proof.Machine

/-- The result of a transaction (R22): the tagged type the spec says a model should use. -/
inductive Result where
  /-- The Message: two binary32 patterns. -/
  | ok (pm25 pm10 : F32)
  /-- The sync check failed: the bytes at offsets 0 and 9. -/
  | invalidHeader (header tail : Byte)
  /-- The checksum check failed: the byte at offset 8 and the computed sum. -/
  | checksumMismatch (expected actual : Byte)
  deriving DecidableEq, Repr

/-- The tag of a Result (R56). -/
inductive ResultKind where
  | ok
  | invalidHeader
  | checksumMismatch
  deriving DecidableEq, Repr

/-- The three classes of frames (R49). -/
inductive FrameClass where
  | syncBad
  | csumBad
  | valid
  deriving DecidableEq, Repr

/-- The input ports in one cycle (R20). -/
structure InPorts where
  rst     : Bool
  inValid : Bool
  frameIn : FrameWord
  deriving DecidableEq, Repr

/-- The line `DECODE <frame>` of a transaction program (R59): a cycle in which a frame is presented. -/
def InPorts.decode (w : FrameWord) : InPorts := ⟨false, true, w⟩

/-- The line `IDLE` (R59): `in_valid = 0`; what `frame_in` then holds is any value. -/
def InPorts.idle (w : FrameWord) : InPorts := ⟨false, false, w⟩

/-- The line `RESET` (R59): `rst = 1`; what the other inputs then hold is any value. -/
def InPorts.reset (v : Bool) (w : FrameWord) : InPorts := ⟨true, v, w⟩

/-- What the block takes from its input ports in a cycle: a reset (R98), no frame, or a frame it accepts (R26). -/
inductive Sampled where
  | reset
  | idle
  | frame (w : FrameWord)
  deriving DecidableEq, Repr

/-- The output ports in one cycle (R21). `none` says that the port is unspecified there (R23, R24): the model gives it no
value (log 5). -/
structure OutPorts where
  outValid     : Bool
  status       : Option (BitVec 2)
  pm25         : Option F32
  pm10         : Option F32
  failHeader   : Option Byte
  failTail     : Option Byte
  csumExpected : Option Byte
  csumActual   : Option Byte
  deriving DecidableEq, Repr

/-- The value that one internal operation, run by itself, hands over its internal interface (R68). -/
inductive UnitValue where
  /-- SYNC_CHECK's bit. -/
  | sync (ok : Bool)
  /-- CSUM8's byte. -/
  | csum (actual : Byte)
  /-- CSUM_CMP's pair. -/
  | compare (ok : Bool) (actual : Byte)
  /-- The 16-bit value of LE16, EXTRACT_PM25 and EXTRACT_PM10. -/
  | raw (value : Half)
  /-- SCALE10's binary32 pattern. -/
  | scaled (bits : F32)
  deriving DecidableEq, Repr

/-- Why an access stops. No step of the block raises one: the block never traps (R85). -/
inductive Fault where
  /-- Raised by a read of the frame window at an offset outside 0..9, which no operation forms (R28, R37). Safe: it
  stops. -/
  | outsideWindow (offset : Nat)
  /-- Raised by a consumer's reading of the reserved status code 0b11, which the block never drives (R56). Safe: it
  stops. -/
  | reservedStatus
  deriving DecidableEq, Repr

/-- Why an instruction has no meaning here. -/
inductive Refusal where
  /-- Raised by an arm of `exec` whose instruction has no meaning yet; no arm does. Safe: it stops. -/
  | notModelled (mnemonic : String)
  deriving DecidableEq, Repr

/-- The state of the block and of its ports. -/
structure State where
  /-- The input ports, this cycle's first, then those of the cycles to come; after the last the block is idle
  (log 3). -/
  inputs   : List InPorts
  /-- The pipeline: `LATENCY` slots, the head (next to leave) first, each empty or holding one Result (R26). -/
  slots    : List (Option Result)
  /-- The outputs of the cycle just run: `none` is `out_valid = 0`, `some r` is `out_valid = 1` with `r` (R22, R24). -/
  out      : Option Result
  /-- The value of an internal operation run by itself; the model's own field (log 6). -/
  returned : Option UnitValue
  deriving DecidableEq, Repr

/-- `LATENCY` of the machine in this state: the number of its slots (R26, log 1). -/
def State.latency (s : State) : Nat := s.slots.length

/-- The machine of a given `LATENCY` right after reset: every slot empty, `out_valid = 0` (R27). -/
def State.resetWith (latency : Nat) : State where
  inputs   := []
  slots    := List.replicate latency none
  out      := none
  returned := none

/-- The machine right after reset (R27), at the OPEN parameter `LATENCY`. -/
def State.reset : State := State.resetWith Config.latency

end Sys2Proof.Machine
end

