-- ==== Sys2Proof/Machine/Operands.lean ====
section
/-! DEFINITION. The operand forms (30_encoding.md R48): bytes of the frame, the six data bytes, and the two little-endian
16-bit fields. Every value is unsigned; there is no other form. -/

namespace Sys2Proof.Machine

/-- `zext_16(b)`: a byte widened with zeros in bits 15..8 (R11, R13). -/
def zext16 (b : Byte) : Half := b.setWidth 16

/-- `data[i] = frame[2+i]`, the operands of the checksum (R48). -/
def dataBytes (f : Frame) : List Byte :=
  [f.pm25Lo, f.pm25Hi, f.pm10Lo, f.pm10Hi, f.res0, f.res1]

/-- LE16 (R74): little-endian assembly of two bytes. -/
def le16 (lo hi : Byte) : Half := zext16 lo ||| (zext16 hi <<< 8)

/-- EXTRACT_PM25 (R75). -/
def extractPm25 (f : Frame) : Half := le16 f.pm25Lo f.pm25Hi

/-- EXTRACT_PM10 (R76). -/
def extractPm10 (f : Frame) : Half := le16 f.pm10Lo f.pm10Hi

end Sys2Proof.Machine
end

