-- ==== Sys2Proof/WellFormed.lean ====
section
/-! DEFINITION. Well-formed instructions: the two FRAME80 rows of the opcode table split the frames by their sync bytes
(30_encoding.md R49, R50). The internal operations take every operand value (R75, R76: none is reserved or refused). -/

namespace Sys2Proof

/-- The three sync bytes are the required ones (R46: the selector fields). -/
def Frame.syncBytesMatch (f : Frame) : Bool :=
  f.header == Config.header && f.command == Config.command && f.tail == Config.tail

/-- The well-formedness checks: one for each FRAME80 row. -/
def Instr.wellFormed : Instr → Bool
  | .decode f => f.syncBytesMatch
  | .decodeSyncBad f => !f.syncBytesMatch
  | .syncCheck _ => true
  | .csum8 _ => true
  | .csumCmp _ => true
  | .le16 _ _ => true
  | .extractPm25 _ => true
  | .extractPm10 _ => true
  | .scale10 _ => true

end Sys2Proof
end

