-- ==== Sys2Proof/Decode.lean ====
section
/-! DEFINITION. The decoder and, after it, the encoder. The instruction word is the 80-bit frame; classification by
SYNC_MASK and SYNC_MATCH is total (30_encoding.md R49), and the lanes are those of 20_memory.md R30. -/

namespace Sys2Proof

/-- The frame on the port: byte `k` is `frame_in[8k+7:8k]` (R30, R48). -/
def Frame.unpack (w : FrameWord) : Frame where
  header   := w.extractLsb' 0 8
  command  := w.extractLsb' 8 8
  pm25Lo   := w.extractLsb' 16 8
  pm25Hi   := w.extractLsb' 24 8
  pm10Lo   := w.extractLsb' 32 8
  pm10Hi   := w.extractLsb' 40 8
  res0     := w.extractLsb' 48 8
  res1     := w.extractLsb' 56 8
  checksum := w.extractLsb' 64 8
  tail     := w.extractLsb' 72 8

/-- SYNC_MASK: the bits of offsets 0, 1 and 9 (R49). -/
def syncMask : FrameWord := 0xFF00_0000_0000_0000_FFFF

/-- SYNC_MATCH: their required values (R49). -/
def syncMatch : FrameWord := 0xAB00_0000_0000_0000_C0AA

/-- The decoder: total on the 80 bits of the port, and it selects no internal operation (R49, R55). -/
def decode (w : FrameWord) : Instr :=
  if w &&& syncMask = syncMatch then .decode (Frame.unpack w) else .decodeSyncBad (Frame.unpack w)

/-- Why a byte sequence is no instruction. -/
inductive DecodeError where
  /-- Not exactly 10 bytes: such a frame cannot be presented (R45). Safe: it stops. -/
  | wrongLength (n : Nat)
  deriving DecidableEq, Repr

/-- The frame of ten bytes in offset order. -/
def Frame.ofBytes : List Byte → Except DecodeError Frame
  | [b0, b1, b2, b3, b4, b5, b6, b7, b8, b9] => .ok ⟨b0, b1, b2, b3, b4, b5, b6, b7, b8, b9⟩
  | bs => .error (.wrongLength bs.length)

/-- The packed port value of a frame: offset 9 in the most significant lane (R30, R58). -/
def Frame.pack (f : Frame) : FrameWord :=
  f.tail ++ f.checksum ++ f.res1 ++ f.res0 ++ f.pm10Hi ++ f.pm10Lo ++ f.pm25Hi ++ f.pm25Lo ++ f.command ++ f.header

/-- The decoder on bytes in the order in which they arrive, total on any bytes (R45, R58). -/
def decodeBytes (bs : List Byte) : Except DecodeError Instr :=
  (Frame.ofBytes bs).map fun f => decode f.pack

/-- The encoder: the port value of a FRAME80 operation (R46, R47); the internal operations have none (R55). -/
def encode : Instr → Option FrameWord
  | .decode f => some f.pack
  | .decodeSyncBad f => some f.pack
  | .syncCheck _ => none
  | .csum8 _ => none
  | .csumCmp _ => none
  | .le16 _ _ => none
  | .extractPm25 _ => none
  | .extractPm10 _ => none
  | .scale10 _ => none

/-- The encoder to bytes in offset order. -/
def encodeBytes (i : Instr) : Option (List Byte) :=
  (encode i).map fun w => (Frame.unpack w).bytes

/-- The port value of a table word: the bits above `nbits` are 0. -/
def tableWord (nbits w : Nat) : FrameWord :=
  BitVec.ofNat 80 (w % 2 ^ nbits)

/-- The bytes of a table word, the first at offset 0, filled with zero bytes up to the length of a frame. -/
def tableBytes (nbits w : Nat) : List Byte :=
  (List.range (max 10 ((nbits + 7) / 8))).map fun k => BitVec.ofNat 8 (w % 2 ^ nbits / 2 ^ (8 * k))

/-- The instruction the decoder reads from a table word. -/
def decodeTableWord (nbits w : Nat) : Option Instr :=
  match decodeBytes (tableBytes nbits w) with
  | .ok i => some i
  | .error _ => none

end Sys2Proof
end

