-- ==== Sys2Proof/Machine/Ops.lean ====
section
/-! DEFINITION. The named operations: reading the frame window (20_memory.md R28), sampling the input ports (10_state.md
R20, 70_reset_and_hazards.md R98), and moving the pipeline (R26, R98). There is no trap entry and no trap return to write
(60_exceptions.md R88, R89), and no operation writes memory (20_memory.md R36). -/

namespace Sys2Proof.Machine

/-- The block's one address space, as address and byte pairs. -/
abbrev Memory := List Host.Cell

/-- The canonical form: addresses strictly rising, and every address one that exists (R28). An unlisted address reads as
nothing, so no entry can equal what it reads as. -/
def Memory.wf (m : Memory) : Bool :=
  (m.map Prod.fst).Pairwise (· < ·) && m.all fun c => c.1 < 10

/-- The window of a frame: ten addresses, one byte each (R28, R29). -/
def windowOf (f : Frame) : Memory :=
  (List.range 10).zip f.bytes

/-- `MemRead(k, 1)` (R11): the byte at an address; an address that does not exist faults (R28). -/
def Memory.read (m : Memory) (k : Nat) : Except Fault Byte :=
  match m.lookup k with
  | some b => .ok b
  | none => .error (.outsideWindow k)

/-- The `rst` port is present only when `LATENCY > 0` (R20, R98, log 8). -/
def State.hasRst (s : State) : Bool := !s.slots.isEmpty

/-- What the block samples in this cycle. A reset wins over `in_valid` (R98); when no input is left the block is idle
(log 3). -/
def State.sample (s : State) : Sampled :=
  match s.inputs with
  | [] => .idle
  | p :: _ => if p.rst && s.hasRst then .reset else if p.inValid then .frame p.frameIn else .idle

/-- The frame window of the machine: that of the transaction of this cycle, no address when no frame is accepted (R28,
R35). -/
def State.window (s : State) : Memory :=
  match s.sample with
  | .reset => []
  | .idle => []
  | .frame w => windowOf (Frame.unpack w)

/-- The model's read of one byte: `frame[k]` of the transaction of this cycle. -/
def State.readByte (s : State) (k : Nat) : Except Fault Byte := s.window.read k

/-- One cycle of the pipeline (R26): `r` enters at the tail, the slot leaving the head is presented. With `LATENCY = 0`
it is `r` itself that is presented. No unit holds a value past the cycle (R68). -/
def State.shift (s : State) (r : Option Result) : State :=
  { s with
    slots    := (s.slots ++ [r]).tail
    out      := (s.slots ++ [r]).headD none
    returned := none }

/-- A cycle with `rst = 1` (R98): every slot becomes empty and nothing is presented. -/
def State.flush (s : State) : State :=
  { s with
    slots    := s.slots.map fun _ => none
    out      := none
    returned := none }

/-- An internal operation hands its value on and changes nothing else (R36, R68). -/
def State.give (s : State) (v : UnitValue) : State :=
  { s with returned := some v }

/-- The end of a clock cycle: the next cycle's inputs are on the ports. -/
def State.endCycle (s : State) : State :=
  { s with inputs := s.inputs.tail }

/-- The clock edge after an operation: a next state goes on to the next cycle, a stop stays a stop. -/
def endCycleOf : Host.Outcome State Fault Refusal → Host.Outcome State Fault Refusal
  | .next t => .next t.endCycle
  | .fault r => .fault r
  | .refused r => .refused r

/-- `s` with a frame on its input ports in this cycle, in the place of what was there. -/
def State.present (s : State) (w : FrameWord) : State :=
  { s with inputs := InPorts.decode w :: s.inputs.tail }

end Sys2Proof.Machine
end

