-- ==== Sys2Proof/Machine/ChecksumEngine.lean ====
section
/-! DEFINITION. The checksum_engine unit: CSUM8 and CSUM_CMP (41_checksum_engine.md R69, R70). -/

namespace Sys2Proof.Machine

/-- The 16-bit unsigned sum of the six data bytes (R69). -/
def dataSum (f : Frame) : Half :=
  zext16 f.pm25Lo + zext16 f.pm25Hi + zext16 f.pm10Lo + zext16 f.pm10Hi + zext16 f.res0 + zext16 f.res1

/-- CSUM8 (R69): the sum modulo 256, wrapping and not saturating (R71). -/
def csum8 (f : Frame) : Byte := BitVec.ofNat 8 ((dataSum f).toNat % Config.csumMod)

/-- CSUM_CMP (R70): whether the computed sum equals the transmitted byte, and the computed sum. -/
def csumCmp (f : Frame) : Bool × Byte := (csum8 f == f.checksum, csum8 f)

/-- The meaning of CSUM8. -/
def execCsum8 (f : Frame) (s : State) : Host.Outcome State Fault Refusal :=
  .next (s.give (.csum (csum8 f)))

/-- The meaning of CSUM_CMP. -/
def execCsumCmp (f : Frame) (s : State) : Host.Outcome State Fault Refusal :=
  .next (s.give (.compare (csumCmp f).1 (csumCmp f).2))

end Sys2Proof.Machine
end

