-- ==== Sys2Proof/Machine/FixedPointScalar.lean ====
section
/-! DEFINITION. The fixed_point_scalar unit: LE16, EXTRACT_PM25, EXTRACT_PM10 and SCALE10 (42_fixed_point_scalar.md R74 to
R78). -/

namespace Sys2Proof.Machine

/-- `e + 4` for R78's exponent `e`, `10 * 2^e <= raw < 10 * 2^(e+1)`: `e` is at least -4, so this is a natural number. -/
def scaleExponent (raw : Nat) : Nat := Nat.log2 (16 * raw / 10)

/-- R78's `N = raw * 2^(23 - e)`. -/
def scaleNumerator (raw : Nat) : Nat := raw * 2 ^ (27 - scaleExponent raw)

/-- R78's `m = (N + 5) div 10`. -/
def scaleSignificand (raw : Nat) : Nat := (scaleNumerator raw + 5) / 10

/-- SCALE10 (R77) by the integer algorithm of R78, its renormalising branch written as R78 has it. -/
def scale10 (raw : Half) : F32 :=
  let n := raw.toNat
  if n = 0 then 0
  else
    let m := scaleSignificand n
    let biased := scaleExponent n + 123
    if m = 2 ^ 24 then BitVec.ofNat 32 ((biased + 1) * 2 ^ 23)
    else BitVec.ofNat 32 (biased * 2 ^ 23 + (m - 2 ^ 23))

/-- The meaning of LE16. -/
def execLe16 (lo hi : Byte) (s : State) : Host.Outcome State Fault Refusal :=
  .next (s.give (.raw (le16 lo hi)))

/-- The meaning of EXTRACT_PM25. -/
def execExtractPm25 (f : Frame) (s : State) : Host.Outcome State Fault Refusal :=
  .next (s.give (.raw (extractPm25 f)))

/-- The meaning of EXTRACT_PM10. -/
def execExtractPm10 (f : Frame) (s : State) : Host.Outcome State Fault Refusal :=
  .next (s.give (.raw (extractPm10 f)))

/-- The meaning of SCALE10. -/
def execScale10 (raw : Half) (s : State) : Host.Outcome State Fault Refusal :=
  .next (s.give (.scaled (scale10 raw)))

end Sys2Proof.Machine
end

