-- ==== Sys2Proof/Machine/FrameValidator.lean ====
section
/-! DEFINITION. The frame_validator unit: SYNC_CHECK and DECODE (40_frame_validator.md R61, R62, R64). -/

namespace Sys2Proof.Machine

/-- SYNC_CHECK (R62): all three sync bytes, together (R63). -/
def syncCheck (f : Frame) : Bool :=
  f.header == Config.header && f.command == Config.command && f.tail == Config.tail

/-- The payload of InvalidHeader: the bytes at offsets 0 and 9, whichever sync byte was wrong (R64). -/
def syncFailure (f : Frame) : Result := .invalidHeader f.header f.tail

/-- The Message of Step 3 (R61). -/
def message (f : Frame) : Result := .ok (scale10 (extractPm25 f)) (scale10 (extractPm10 f))

/-- DECODE (R61): the sync check before the checksum check, so that its failure wins (R86). -/
def decodeResult (f : Frame) : Result :=
  if syncCheck f then
    match csumCmp f with
    | (true, _) => message f
    | (false, actual) => .checksumMismatch f.checksum actual
  else syncFailure f

/-- The class of a frame (R49), by the sync mask on the packed port and the computed checksum. -/
def classify (w : FrameWord) : FrameClass :=
  if w &&& syncMask ≠ syncMatch then .syncBad
  else if csum8 (Frame.unpack w) = (Frame.unpack w).checksum then .valid
  else .csumBad

/-- The meaning of SYNC_CHECK. -/
def execSyncCheck (f : Frame) (s : State) : Host.Outcome State Fault Refusal :=
  .next (s.give (.sync (syncCheck f)))

/-- The meaning of DECODE: the frame is accepted in this cycle and its Result enters the pipeline (R26, R61). -/
def execDecode (f : Frame) (s : State) : Host.Outcome State Fault Refusal :=
  .next (s.shift (some (decodeResult f)))

/-- The meaning of DECODE.SYNC_BAD: the frame is accepted in this cycle and an InvalidHeader Result enters the pipeline
(R26, R64). -/
def execDecodeSyncBad (f : Frame) (s : State) : Host.Outcome State Fault Refusal :=
  .next (s.shift (some (syncFailure f)))

end Sys2Proof.Machine
end

