-- ==== Sys2Proof/Machine/Dispatch.lean ====
section
/-! DEFINITION. The dispatch: one arm per constructor of `Instr`, each a call of its meaning. -/

namespace Sys2Proof.Machine

def exec (i : Instr) (s : State) : Host.Outcome State Fault Refusal :=
  match i with
  | .decode frame => Sys2Proof.Machine.execDecode frame s
  | .decodeSyncBad frame => Sys2Proof.Machine.execDecodeSyncBad frame s
  | .syncCheck frame => Sys2Proof.Machine.execSyncCheck frame s
  | .csum8 frame => Sys2Proof.Machine.execCsum8 frame s
  | .csumCmp frame => Sys2Proof.Machine.execCsumCmp frame s
  | .le16 lo hi => Sys2Proof.Machine.execLe16 lo hi s
  | .extractPm25 frame => Sys2Proof.Machine.execExtractPm25 frame s
  | .extractPm10 frame => Sys2Proof.Machine.execExtractPm10 frame s
  | .scale10 raw => Sys2Proof.Machine.execScale10 raw s

end Sys2Proof.Machine
end

