-- ==== Sys2Proof/Machine/Step.lean ====
section
/-! DEFINITION. One step of the machine: one clock cycle of the block (10_state.md R26, 70_reset_and_hazards.md R98,
log 4). -/

namespace Sys2Proof.Machine

/-- One clock cycle: a reset cycle, a cycle with no frame, or the cycle in which a frame is accepted and decoded. -/
def step (s : State) : Host.Outcome State Fault Refusal :=
  match s.sample with
  | .reset => .next s.flush.endCycle
  | .idle => .next (s.shift none).endCycle
  | .frame w => endCycleOf (exec (decode w) s)

/-- `s` with a table word on the input ports in this cycle, so that the next step accepts exactly that frame (log 4). -/
def State.withFetchWord (s : State) (nbits w : Nat) : State :=
  s.present (tableWord nbits w)

end Sys2Proof.Machine
end

