-- ==== Sys2Proof/Machine/Binary32.lean ====
section
/-! DEFINITION. Binary32 values that are finite and not negative, the only ones the block forms (42_fixed_point_scalar.md
R79), and the two operations R11 names on them: `f32` and `f32_div`, correctly rounded to nearest, ties to even (R77).
This is the reading of R77 against which SCALE10's integer algorithm (R78) is held; no meaning calls it. -/

namespace Sys2Proof.Machine

/-- A binary32 pattern whose value is finite and not negative: sign bit 0, exponent field below 255 (R57). -/
def f32IsFinite (b : F32) : Bool := b.toNat < 0x7F800000

/-- The value of such a pattern, in units of `2^(-149)`: the fraction alone when the exponent field is 0, else the
fraction with its hidden bit, shifted by the exponent field less 1 (R57). -/
def f32Units (b : F32) : Nat :=
  if b.toNat / 2 ^ 23 = 0 then b.toNat % 2 ^ 23
  else (2 ^ 23 + b.toNat % 2 ^ 23) * 2 ^ (b.toNat / 2 ^ 23 - 1)

/-- One, in units of `2^(-149)`. -/
def f32One : Nat := 2 ^ 149

/-- The integer nearest to `num / den`, a tie going to the even one. -/
def roundHalfEven (num den : Nat) : Nat :=
  if 2 * (num % den) < den then num / den
  else if den < 2 * (num % den) then num / den + 1
  else num / den + num / den % 2

/-- The binary32 pattern nearest to the rational `num / den`, ties to even. In units of `2^(-149)` the spacing around the
value is `2^shift`; a significand that rounds up to `2^24` carries into the exponent field by itself, and a value beyond
the format gives the pattern of infinity. -/
def f32Round (num den : Nat) : F32 :=
  let shift := Nat.log2 (num * f32One / den) - 23
  BitVec.ofNat 32 (min 0x7F800000 (shift * 2 ^ 23 + roundHalfEven (num * f32One) (den * 2 ^ shift)))

/-- `f32(n)`: the binary32 value of a natural number (R11). -/
def f32OfNat (n : Nat) : F32 := f32Round n 1

/-- `f32_div(x, y)`: the quotient of two such values, rounded to nearest (R11, R77). Outside them, or for a divisor of
zero, the spec says nothing and there is no value. -/
def f32Div (x y : F32) : Option F32 :=
  if f32IsFinite x && f32IsFinite y && f32Units y != 0 then some (f32Round (f32Units x) (f32Units y)) else none

end Sys2Proof.Machine
end

