-- ==== Sys2Proof/Machine/Flags.lean ====
section
/-! DEFINITION. The block has no flags (10_state.md R17, 42_fixed_point_scalar.md R83). What stands in their place is the
tag of the Result on `status` (30_encoding.md R56) and the drive of the output ports (10_state.md R23, R24). -/

namespace Sys2Proof.Machine

/-- The tag of a Result. -/
def Result.kind : Result → ResultKind
  | .ok _ _ => .ok
  | .invalidHeader _ _ => .invalidHeader
  | .checksumMismatch _ _ => .checksumMismatch

/-- The `status` code of a tag (R56). -/
def ResultKind.code : ResultKind → BitVec 2
  | .ok => 0b00
  | .invalidHeader => 0b01
  | .checksumMismatch => 0b10

/-- A consumer's reading of `status`: the reserved code is a fault of the implementation (R56). -/
def readStatus (b : BitVec 2) : Except Fault ResultKind :=
  if b = 0b00 then .ok .ok
  else if b = 0b01 then .ok .invalidHeader
  else if b = 0b10 then .ok .checksumMismatch
  else .error .reservedStatus

/-- How a Result drives the ports when `out_valid = 1` (R23). -/
def Result.drive : Result → OutPorts
  | .ok p q => ⟨true, some ResultKind.ok.code, some p, some q, none, none, none, none⟩
  | .invalidHeader h t => ⟨true, some ResultKind.invalidHeader.code, none, none, some h, some t, none, none⟩
  | .checksumMismatch e a => ⟨true, some ResultKind.checksumMismatch.code, none, none, none, none, some e, some a⟩

/-- The ports when `out_valid = 0`: every other port is unspecified (R24). -/
def OutPorts.silent : OutPorts := ⟨false, none, none, none, none, none, none, none⟩

/-- The output ports of the machine (R21). -/
def State.outPorts (s : State) : OutPorts :=
  match s.out with
  | none => OutPorts.silent
  | some r => r.drive

end Sys2Proof.Machine
end

