-- ==== Sys2Proof/Safety.lean ====
section
/-! DEFINITION. What counts as a safe run, in the terms the claims use: the block never stops (60_exceptions.md R85), and
everything in its pipeline and on its outputs is a Result of DECODE (40_frame_validator.md R65). -/

namespace Sys2Proof.Machine

/-- `r` is the Result that DECODE gives some frame. -/
def Result.Produced (r : Result) : Prop := ∃ f : Frame, decodeResult f = r

/-- Every Result in a slot is one DECODE produced, so is the one presented, and no unit holds a value (R26, R68). -/
structure State.Inv (s : State) : Prop where
  slots    : ∀ r, some r ∈ s.slots → r.Produced
  out      : ∀ r, s.out = some r → r.Produced
  returned : s.returned = none

/-- The input ports in cycle `t` counted from this one; after the last listed cycle the block is idle (log 3). -/
def State.inputAt (s : State) (t : Nat) : InPorts := s.inputs.getD t (InPorts.idle 0)

/-- `rst = 1` on a port that exists in cycle `t` (R98). -/
def State.resetAt (s : State) (t : Nat) : Bool := (s.inputAt t).rst && s.hasRst

/-- What enters the pipeline in a cycle without reset: DECODE of the frame, or an empty slot (R26). -/
def InPorts.enters (p : InPorts) : Option Result :=
  if p.inValid then some (decodeResult (Frame.unpack p.frameIn)) else none

/-- The stream of outputs of the next `n` cycles, ended by a stop. -/
def outputs : Nat → State → List (Option Result)
  | 0, _ => []
  | n + 1, s =>
    match step s with
    | .next t => t.out :: outputs n t
    | .fault _ => []
    | .refused _ => []

/-- `n` clock cycles, ended by a stop. -/
def cycles : Nat → State → Host.Outcome State Fault Refusal
  | 0, s => .next s
  | n + 1, s =>
    match step s with
    | .next t => cycles n t
    | .fault r => .fault r
    | .refused r => .refused r

/-- A run of `n` cycles that comes to no stop. -/
def SafeRun (n : Nat) (s : State) : Prop := ∃ t, cycles n s = .next t

end Sys2Proof.Machine
end

