-- ==== Sys2Proof/Certificates/Slice0/Obligations.lean ====
section
/-! DEFINITION. The statements for the provers. Each docstring names the rule of spec/ it formalises, or the sections it
rests on and whose choice it is. `L` stands for the latency of a state, the number of its slots (log 1). -/

open Sys2Proof Sys2Proof.Machine

/-! ### The frame on the port: lanes, decoding, encoding -/

/-- The port value is the sum of the bytes weighted by `2^(8k)`, and unpacking takes byte `k` from lane `k`. The lane
order is the spec's own decision D2. -/
def Obligations.FrameLanesAreBytesInOffsetOrder : Prop :=
  (∀ f : Frame, f.pack.toNat =
    (f.byte 0).toNat + (f.byte 1).toNat * 2 ^ 8 + (f.byte 2).toNat * 2 ^ 16 + (f.byte 3).toNat * 2 ^ 24
      + (f.byte 4).toNat * 2 ^ 32 + (f.byte 5).toNat * 2 ^ 40 + (f.byte 6).toNat * 2 ^ 48
      + (f.byte 7).toNat * 2 ^ 56 + (f.byte 8).toNat * 2 ^ 64 + (f.byte 9).toNat * 2 ^ 72) ∧
  ∀ (w : FrameWord) (k : Fin 10), (Frame.unpack w).byte k = w.extractLsb' (8 * k.val) 8

/-- Decoding the encoding of a well-formed instruction gives it back: no bit of an operand is dropped, on the port and on
the bytes. -/
def Obligations.DecodeOfEncodeGivesInstructionBack : Prop :=
  ∀ i : Instr, i.wellFormed = true →
    (∀ w, encode i = some w → decode w = i) ∧ (∀ bs, encodeBytes i = some bs → decodeBytes bs = .ok i)

/-- Every port value decodes to a well-formed instruction of which it is the encoding. -/
def Obligations.EncodeOfDecodeGivesPortValueBack : Prop :=
  ∀ w : FrameWord, (decode w).wellFormed = true ∧ encode (decode w) = some w

/-- Exactly ten bytes are a frame, and any other number is turned away by name. That such bytes get a name and not silence
is the model's own choice (log 16). -/
def Obligations.OnlyTenBytesAreAFrame : Prop :=
  ∀ bs : List Byte, (bs.length = 10 → ∃ i, decodeBytes bs = .ok i) ∧
    (bs.length ≠ 10 → decodeBytes bs = .error (.wrongLength bs.length))

/-- The three classes of R49, each with its decoding and its result; the masks are the spec's inference from R46. -/
def Obligations.EveryPortValueFallsInOneClass : Prop :=
  ∀ w : FrameWord,
    let f := Frame.unpack w
    (w &&& 0xFF00_0000_0000_0000_FFFF ≠ 0xAB00_0000_0000_0000_C0AA →
      classify w = .syncBad ∧ decode w = .decodeSyncBad f ∧ decodeResult f = .invalidHeader (f.byte 0) (f.byte 9)) ∧
    (w &&& 0xFF00_0000_0000_0000_FFFF = 0xAB00_0000_0000_0000_C0AA → csum8 f ≠ f.byte 8 →
      classify w = .csumBad ∧ decode w = .decode f ∧ decodeResult f = .checksumMismatch (f.byte 8) (csum8 f)) ∧
    (w &&& 0xFF00_0000_0000_0000_FFFF = 0xAB00_0000_0000_0000_C0AA → csum8 f = f.byte 8 →
      classify w = .valid ∧ decode w = .decode f ∧
        decodeResult f = .ok (scale10 (extractPm25 f)) (scale10 (extractPm10 f)))

/-- R53: a frame with another command byte is in class SYNC_BAD whatever its other bytes, and no input selects anything
but the two FRAME80 operations. -/
def Obligations.OnlyActiveModePushCommandIsDecoded : Prop :=
  (∀ f : Frame, f.byte 1 ≠ 0xC0 → classify f.pack = .syncBad ∧ decode f.pack = .decodeSyncBad f) ∧
  ∀ w : FrameWord, decode w = .decode (Frame.unpack w) ∨ decode w = .decodeSyncBad (Frame.unpack w)

/-- A frame whose sync bytes do not match is neither refused nor trapped, in any state (R52); its InvalidHeader result
enters the pipeline. The lanes and the pipeline are the spec's own decisions D2 and D5. -/
def Obligations.SyncFailureIsAResultNotATrap : Prop :=
  ∀ (w : FrameWord) (s : State), syncCheck (Frame.unpack w) = false →
    decode w = .decodeSyncBad (Frame.unpack w) ∧
    ∃ t, exec (decode w) s = .next t ∧
      s.slots ++ [some (.invalidHeader (w.extractLsb' 0 8) (w.extractLsb' 72 8))] = t.out :: t.slots

/-- A few port values written out from the pattern of R47 decode to the operations they stand for. -/
def Obligations.WordsFromTheEncodingTableDecode : Prop :=
  decode 0xAB_F5_93_40_00_15_00_0D_C0_AA = .decode ⟨170, 192, 13, 0, 21, 0, 64, 147, 245, 171⟩ ∧
  decode 0xAB_FA_FF_FF_FF_FF_FF_FF_C0_AA = .decode ⟨170, 192, 255, 255, 255, 255, 255, 255, 250, 171⟩ ∧
  decode 0xAA_AB_F6_93_40_00_15_01_0E_C0 = .decodeSyncBad ⟨192, 14, 1, 21, 0, 64, 147, 246, 171, 170⟩ ∧
  decode 0 = .decodeSyncBad ⟨0, 0, 0, 0, 0, 0, 0, 0, 0, 0⟩

/-! ### The units' functions -/

/-- SYNC_CHECK is the test of the three sync bytes (R62), so it reads no other byte; and equally it is the mask test on the
packed frame. The lanes of that packed frame are the spec's own decision D2 (log 10), and the mask condition is what R49
marks as the spec's inference from R46. -/
def Obligations.SyncCheckTestsTheThreeSyncBytes : Prop :=
  (∀ f : Frame, syncCheck f = true ↔ f.byte 0 = 0xAA ∧ f.byte 1 = 0xC0 ∧ f.byte 9 = 0xAB) ∧
  (∀ f : Frame, syncCheck f = true ↔
    f.pack &&& 0xFF00_0000_0000_0000_FFFF = 0xAB00_0000_0000_0000_C0AA) ∧
  ∀ f g : Frame, f.byte 0 = g.byte 0 → f.byte 1 = g.byte 1 → f.byte 9 = g.byte 9 → syncCheck f = syncCheck g

/-- CSUM8 is the natural sum of the six data bytes modulo 256 (R69). The bound 1530, by which the sum fits 16 bits, and
that an 8-bit accumulator in any order, and bits 7:0 of a wider one, give the same, are what R69 marks as the spec's
inference from R9 and from R69 itself. -/
def Obligations.ChecksumIsSumOfDataBytesModulo256 : Prop :=
  ∀ f : Frame,
    let sum := (f.byte 2).toNat + (f.byte 3).toNat + (f.byte 4).toNat + (f.byte 5).toNat + (f.byte 6).toNat
      + (f.byte 7).toNat
    sum ≤ 1530 ∧ (csum8 f).toNat = sum % 256 ∧
    (∀ l : List Byte, l.Perm [f.byte 2, f.byte 3, f.byte 4, f.byte 5, f.byte 6, f.byte 7] →
      l.foldl (· + ·) 0 = csum8 f) ∧
    ∀ n, 11 ≤ n → (BitVec.ofNat n sum).setWidth 8 = csum8 f

/-- R71: the checksum wraps, it does not saturate. -/
def Obligations.ChecksumWrapsAndDoesNotSaturate : Prop :=
  ∀ f : Frame,
    let sum := (f.byte 2).toNat + (f.byte 3).toNat + (f.byte 4).toNat + (f.byte 5).toNat + (f.byte 6).toNat
      + (f.byte 7).toNat
    (csum8 f).toNat = sum % 256 ∧ (sum = 256 → csum8 f = 0) ∧ (sum = 1530 → csum8 f = 250)

/-- CSUM_CMP compares the computed sum with the byte at offset 8 and gives both, and its failure is DECODE's
ChecksumMismatch with the transmitted byte as `expected` and the computed one as `actual` (R70). The transmitted byte is
not part of its own sum. That the two always differ in a ChecksumMismatch, "When `ok` is false, `expected != actual` always
holds", is what R70 marks as the spec's inference from itself. -/
def Obligations.ChecksumCompareGivesVerdictAndSum : Prop :=
  (∀ f : Frame, ((csumCmp f).1 = true ↔ csum8 f = f.byte 8) ∧ (csumCmp f).2 = csum8 f) ∧
  (∀ f : Frame, syncCheck f = true → (csumCmp f).1 = false →
    decodeResult f = .checksumMismatch (f.byte 8) (csum8 f)) ∧
  (∀ (f : Frame) (e a : Byte), decodeResult f = .checksumMismatch e a → e = f.byte 8 ∧ a = csum8 f ∧ e ≠ a) ∧
  ∀ (f : Frame) (c : Byte), csum8 { f with checksum := c } = csum8 f

/-- CSUM8 depends only on the multiset of the six data bytes; the permutation law is the spec's inference from R69. -/
def Obligations.ChecksumDependsOnlyOnMultisetOfDataBytes : Prop :=
  ∀ f g : Frame,
    [f.byte 2, f.byte 3, f.byte 4, f.byte 5, f.byte 6, f.byte 7].Perm
      [g.byte 2, g.byte 3, g.byte 4, g.byte 5, g.byte 6, g.byte 7] → csum8 f = csum8 g

/-- A valid frame with exactly one data byte changed is a ChecksumMismatch: the sum modulo 256 finds every error of one
byte. Inferred from R61 and R69. -/
def Obligations.OneChangedDataByteIsDetected : Prop :=
  ∀ (f g : Frame) (k : Fin 10) (p q : F32), 2 ≤ k.val → k.val ≤ 7 → f.byte k ≠ g.byte k →
    (∀ j, j ≠ k → f.byte j = g.byte j) → decodeResult f = .ok p q →
    decodeResult g = .checksumMismatch (f.byte 8) (csum8 g)

/-- R74: LE16 is `lo + 256 * hi`, and the two bytes are its low and high halves. -/
def Obligations.LittleEndianAssemblyIsLowPlus256High : Prop :=
  ∀ lo hi : Byte, (le16 lo hi).toNat = lo.toNat + 256 * hi.toNat ∧
    (le16 lo hi).extractLsb' 0 8 = lo ∧ (le16 lo hi).extractLsb' 8 8 = hi ∧ (le16 lo hi = le16 hi lo ↔ lo = hi)

/-- The raw values are the little-endian fields at offsets (2,3) and (4,5) (R75, R76), and so bits 31:16 and 47:32 of the
packed frame. The lanes of that packed frame are the spec's own decision D2 (log 10). -/
def Obligations.MeasurementsAreTheTwoLittleEndianFields : Prop :=
  ∀ f : Frame,
    extractPm25 f = le16 (f.byte 2) (f.byte 3) ∧ extractPm25 f = f.pack.extractLsb' 16 16 ∧
    extractPm10 f = le16 (f.byte 4) (f.byte 5) ∧ extractPm10 f = f.pack.extractLsb' 32 16

/-- R78's algorithm, with `k = e + 4`: an exponent exists, and for it the significand lies in range, no tie occurs, the
renormalising branch is not taken, and the bits are those of R78. R78 is the spec's inference from R77. -/
def Obligations.ScalingFollowsTheIntegerAlgorithm : Prop :=
  scale10 0 = 0 ∧
  ∀ raw : Half, raw ≠ 0 →
    (∃ k, 10 * 2 ^ k ≤ 16 * raw.toNat ∧ 16 * raw.toNat < 10 * 2 ^ (k + 1)) ∧
    ∀ k, 10 * 2 ^ k ≤ 16 * raw.toNat → 16 * raw.toNat < 10 * 2 ^ (k + 1) →
      k ≤ 16 ∧ raw.toNat * 2 ^ (27 - k) % 10 ≠ 5 ∧
      2 ^ 23 ≤ (raw.toNat * 2 ^ (27 - k) + 5) / 10 ∧ (raw.toNat * 2 ^ (27 - k) + 5) / 10 < 2 ^ 24 ∧
      (scale10 raw).toNat = (k + 123) * 2 ^ 23 + ((raw.toNat * 2 ^ (27 - k) + 5) / 10 - 2 ^ 23)

/-- R77: SCALE10 is the correctly rounded binary32 quotient of the exact `f32(raw)` and `f32(10)`. Binary32 and the
rounding mode are the spec's general knowledge (log 11). -/
def Obligations.ScalingIsBinary32DivisionByTen : Prop :=
  f32OfNat 10 = Config.scale ∧
  ∀ raw : Half, f32Units (f32OfNat raw.toNat) = raw.toNat * f32One ∧
    f32Div (f32OfNat raw.toNat) Config.scale = some (scale10 raw)

/-- R79: the range of SCALE10, its end points, a clear sign bit, and an exponent field of a normal number for every raw
value but 0. R79 is the spec's inference from R77 and R78. -/
def Obligations.ScaledValuesAreNormalUpTo6553Point5 : Prop :=
  scale10 0 = 0x00000000 ∧ scale10 1 = 0x3DCCCCCD ∧ scale10 65535 = 0x45CCCC00 ∧
  (∀ raw : Half, (scale10 raw).msb = false ∧ (scale10 raw).toNat ≤ 0x45CCCC00) ∧
  ∀ raw : Half, raw ≠ 0 → 0x3DCCCCCD ≤ (scale10 raw).toNat ∧
    0 < (scale10 raw).toNat / 2 ^ 23 ∧ (scale10 raw).toNat / 2 ^ 23 < 255

/-- R80: SCALE10 is exact if and only if `raw mod 5 = 0`; always it is the finite binary32 value nearest to `raw / 10`,
within half a unit in the last place. Values are in units of `2^(-149)`. R80 is the spec's inference from R77. -/
def Obligations.ScaledValueIsNearestAndExactOnMultiplesOfFive : Prop :=
  ∀ raw : Half,
    (10 * f32Units (scale10 raw) = raw.toNat * f32One ↔ raw.toNat % 5 = 0) ∧
    (∀ b : F32, f32IsFinite b = true →
      ((10 * f32Units (scale10 raw) : Int) - raw.toNat * f32One).natAbs
        ≤ ((10 * f32Units b : Int) - raw.toNat * f32One).natAbs) ∧
    2 * ((10 * f32Units (scale10 raw) : Int) - raw.toNat * f32One).natAbs
      ≤ 10 * 2 ^ ((scale10 raw).toNat / 2 ^ 23 - 1)

/-- R81: SCALE10 is strictly increasing, so different raw values give different bits, and the raw value is the one natural
number nearest to ten times the result. R81 is the spec's inference from R78. -/
def Obligations.ScalingIsStrictlyIncreasingAndRecoverable : Prop :=
  (∀ a b : Half, a < b → f32Units (scale10 a) < f32Units (scale10 b)) ∧
  (∀ a b : Half, scale10 a = scale10 b → a = b) ∧
  ∀ (raw : Half) (n : Nat), n ≠ raw.toNat →
    ((10 * f32Units (scale10 raw) : Int) - raw.toNat * f32One).natAbs
      < ((10 * f32Units (scale10 raw) : Int) - n * f32One).natAbs

/-! ### DECODE -/

/-- R61: the three steps in their order, on the bytes of the frame. -/
def Obligations.DecodeChecksSyncThenChecksumThenScales : Prop :=
  ∀ f : Frame,
    let sum := (f.byte 2).toNat + (f.byte 3).toNat + (f.byte 4).toNat + (f.byte 5).toNat + (f.byte 6).toNat
      + (f.byte 7).toNat
    (¬ (f.byte 0 = 0xAA ∧ f.byte 1 = 0xC0 ∧ f.byte 9 = 0xAB) →
      decodeResult f = .invalidHeader (f.byte 0) (f.byte 9)) ∧
    ((f.byte 0 = 0xAA ∧ f.byte 1 = 0xC0 ∧ f.byte 9 = 0xAB) → sum % 256 ≠ (f.byte 8).toNat →
      decodeResult f = .checksumMismatch (f.byte 8) (BitVec.ofNat 8 sum)) ∧
    ((f.byte 0 = 0xAA ∧ f.byte 1 = 0xC0 ∧ f.byte 9 = 0xAB) → sum % 256 = (f.byte 8).toNat →
      decodeResult f = .ok (scale10 (BitVec.ofNat 16 ((f.byte 2).toNat + 256 * (f.byte 3).toNat)))
        (scale10 (BitVec.ofNat 16 ((f.byte 4).toNat + 256 * (f.byte 5).toNat))))

/-- R64: the payload of InvalidHeader is the two observed bytes; a frame whose only wrong byte is the command reports the
two expected values. -/
def Obligations.InvalidHeaderReportsObservedHeaderAndTail : Prop :=
  (∀ f : Frame, syncCheck f = false → decodeResult f = .invalidHeader (f.byte 0) (f.byte 9)) ∧
  ∀ f : Frame, f.byte 0 = 0xAA → f.byte 1 ≠ 0xC0 → f.byte 9 = 0xAB → decodeResult f = .invalidHeader 0xAA 0xAB

/-- R86: a frame that fails the sync check reports InvalidHeader whatever its checksum byte and data bytes are. -/
def Obligations.SyncFailureWinsOverChecksumFailure : Prop :=
  (∀ f : Frame, syncCheck f = false → csum8 f ≠ f.byte 8 →
    decodeResult f = .invalidHeader (f.byte 0) (f.byte 9)) ∧
  ∀ f g : Frame, syncCheck f = false → f.byte 0 = g.byte 0 → f.byte 1 = g.byte 1 → f.byte 9 = g.byte 9 →
    decodeResult g = decodeResult f

/-- Ok only when both checks pass (R66), and a failure gives neither measurement port a value. That an unselected port has
no value is the spec's own decision D7. -/
def Obligations.NoMessageWithoutBothChecks : Prop :=
  ∀ f : Frame,
    (∀ p q, decodeResult f = .ok p q → syncCheck f = true ∧ csum8 f = f.byte 8) ∧
    (syncCheck f = false ∨ csum8 f ≠ f.byte 8 →
      (decodeResult f).kind ≠ .ok ∧ (decodeResult f).drive.pm25 = none ∧ (decodeResult f).drive.pm10 = none)

/-- R67: each Result says exactly which check failed, if any, and carries exactly the values of that check. -/
def Obligations.ResultTellsWhichCheckFailed : Prop :=
  ∀ f : Frame,
    (∀ p q, decodeResult f = .ok p q ↔ syncCheck f = true ∧ csum8 f = f.byte 8 ∧
      p = scale10 (extractPm25 f) ∧ q = scale10 (extractPm10 f)) ∧
    (∀ h t, decodeResult f = .invalidHeader h t ↔ syncCheck f = false ∧ h = f.byte 0 ∧ t = f.byte 9) ∧
    (∀ e a, decodeResult f = .checksumMismatch e a ↔ syncCheck f = true ∧ csum8 f ≠ f.byte 8 ∧
      e = f.byte 8 ∧ a = csum8 f)

/-- The reserved bytes are never refused and enter only the checksum: with any values in them and the checksum computed
again, a frame whose sync bytes match gives the same Message. R51 marks this as the spec's inference. -/
def Obligations.ReservedBytesEnterOnlyTheChecksum : Prop :=
  ∀ (f : Frame) (u v : Byte), syncCheck f = true →
    decodeResult { f with res0 := u, res1 := v, checksum := csum8 { f with res0 := u, res1 := v } }
      = .ok (scale10 (extractPm25 f)) (scale10 (extractPm10 f))

/-- Equal Messages come from equal measurement bytes: no two raw values share an Ok result. Inferred from R67 and R81. -/
def Obligations.MessageDeterminesMeasurementBytes : Prop :=
  ∀ (f g : Frame) (p q : F32), decodeResult f = .ok p q → decodeResult g = .ok p q →
    f.byte 2 = g.byte 2 ∧ f.byte 3 = g.byte 3 ∧ f.byte 4 = g.byte 4 ∧ f.byte 5 = g.byte 5

/-! ### Instructions: completion and frame -/

/-- SYNC_CHECK, CSUM8 and CSUM_CMP complete in every state with their value handed on and nothing else changed. The place
of the value is the model's own field `returned` (log 6). -/
def Obligations.CheckOperationsCompleteWithTheirValue : Prop :=
  ∀ (f : Frame) (s : State),
    let sum := (f.byte 2).toNat + (f.byte 3).toNat + (f.byte 4).toNat + (f.byte 5).toNat + (f.byte 6).toNat
      + (f.byte 7).toNat
    let sync := decide (f.byte 0 = 0xAA ∧ f.byte 1 = 0xC0 ∧ f.byte 9 = 0xAB)
    exec (.syncCheck f) s = .next { s with returned := some (.sync sync) } ∧
    exec (.csum8 f) s = .next { s with returned := some (.csum (BitVec.ofNat 8 sum)) } ∧
    exec (.csumCmp f) s =
      .next { s with returned := some (.compare (decide (sum % 256 = (f.byte 8).toNat)) (BitVec.ofNat 8 sum)) }

/-- LE16, EXTRACT_PM25, EXTRACT_PM10 and SCALE10 complete in every state with their value handed on and nothing else
changed. The place of the value is the model's own field `returned` (log 6). -/
def Obligations.ScalarOperationsCompleteWithTheirValue : Prop :=
  (∀ (lo hi : Byte) (s : State), exec (.le16 lo hi) s =
    .next { s with returned := some (.raw (BitVec.ofNat 16 (lo.toNat + 256 * hi.toNat))) }) ∧
  (∀ (f : Frame) (s : State), exec (.extractPm25 f) s =
    .next { s with returned := some (.raw (BitVec.ofNat 16 ((f.byte 2).toNat + 256 * (f.byte 3).toNat))) }) ∧
  (∀ (f : Frame) (s : State), exec (.extractPm10 f) s =
    .next { s with returned := some (.raw (BitVec.ofNat 16 ((f.byte 4).toNat + 256 * (f.byte 5).toNat))) }) ∧
  ∀ (raw : Half) (s : State), ∃ b, f32Div (f32OfNat raw.toNat) Config.scale = some b ∧
    exec (.scale10 raw) s = .next { s with returned := some (.scaled b) }

/-- DECODE and DECODE.SYNC_BAD complete in every state: the frame's Result enters the pipeline at the tail and the head
leaves. The pipeline is the spec's own decision D5; that a unit then holds no value is R68 (log 6). -/
def Obligations.FrameOperationsCompleteIntoThePipeline : Prop :=
  ∀ (f : Frame) (s : State),
    (∃ t, exec (.decode f) s = .next t ∧ s.slots ++ [some (decodeResult f)] = t.out :: t.slots ∧
      t.inputs = s.inputs ∧ t.returned = none) ∧
    ∃ t, exec (.decodeSyncBad f) s = .next t ∧
      s.slots ++ [some (.invalidHeader (f.byte 0) (f.byte 9))] = t.out :: t.slots ∧
      t.inputs = s.inputs ∧ t.returned = none

/-- Whatever the port value, the decoded operation completes with DECODE's Result of its frame: the SYNC_BAD row is the
complement of the DECODE row. Rests on the spec's own decision D5 for the pipeline. -/
def Obligations.DecodedOperationYieldsDecodeResult : Prop :=
  ∀ (w : FrameWord) (s : State), ∃ t, exec (decode w) s = .next t ∧
    s.slots ++ [some (decodeResult (Frame.unpack w))] = t.out :: t.slots

/-- Frame of the seven internal operations SYNC_CHECK, CSUM8, CSUM_CMP, LE16, EXTRACT_PM25, EXTRACT_PM10 and SCALE10: the
pipeline, the outputs, the inputs and every byte of the frame window are unchanged. -/
def Obligations.InternalOperationsLeaveThePipelineAlone : Prop :=
  ∀ (i : Instr) (s t : State), i.format = .internal → exec i s = .next t →
    t.slots = s.slots ∧ t.out = s.out ∧ t.inputs = s.inputs ∧ ∀ a, t.readByte a = s.readByte a

/-- Frame of the two FRAME80 operations DECODE and DECODE.SYNC_BAD: the inputs, every byte of the frame window and the
latency are unchanged, and every slot but the entering one moves by exactly one. -/
def Obligations.FrameOperationsOnlyShiftThePipeline : Prop :=
  ∀ (i : Instr) (s t : State), i.format = .frame80 → exec i s = .next t →
    t.inputs = s.inputs ∧ (∀ a, t.readByte a = s.readByte a) ∧ t.slots.length = s.slots.length ∧
    (∀ j, j + 1 < s.slots.length → t.slots[j]? = s.slots[j + 1]?) ∧
    ∀ x xs, s.slots = x :: xs → t.out = x

/-- R61 read as a sequence of the internal operations: run one after another, their values select DECODE's Result. The
values stand in the model's own field `returned` (log 6). -/
def Obligations.DecodeIsTheSequenceOfItsInternalOperations : Prop :=
  ∀ (f : Frame) (s s1 s2 s3 s4 s5 s6 : State) (sync ok : Bool) (actual : Byte) (raw25 raw10 : Half) (p q : F32),
    exec (.syncCheck f) s = .next s1 → s1.returned = some (.sync sync) →
    exec (.csumCmp f) s1 = .next s2 → s2.returned = some (.compare ok actual) →
    exec (.extractPm25 f) s2 = .next s3 → s3.returned = some (.raw raw25) →
    exec (.scale10 raw25) s3 = .next s4 → s4.returned = some (.scaled p) →
    exec (.extractPm10 f) s4 = .next s5 → s5.returned = some (.raw raw10) →
    exec (.scale10 raw10) s5 = .next s6 → s6.returned = some (.scaled q) →
    exec (.decode f) s6 = exec (.decode f) s ∧
    ∃ t, exec (.decode f) s = .next t ∧
      s.slots ++ [some (if sync then (if ok then .ok p q else .checksumMismatch (f.byte 8) actual)
        else .invalidHeader (f.byte 0) (f.byte 9))] = t.out :: t.slots

/-! ### One clock cycle -/

/-- A step runs the decoded instruction: in a cycle in which a frame is accepted, step is exec of the decoded instruction
followed by the clock edge, which brings the next cycle's inputs to the ports. The input list is the model's own
(log 3). -/
def Obligations.StepRunsTheDecodedInstruction : Prop :=
  ∀ (s : State) (p : InPorts) (ps : List InPorts) (i : Instr), s.inputs = p :: ps → p.inValid = true →
    (p.rst = false ∨ s.slots = []) → decode p.frameIn = i →
    step s = match exec i s with
      | .next t => .next { t with inputs := t.inputs.tail }
      | .fault r => .fault r
      | .refused r => .refused r

/-- A table word placed on the port is what the next step runs, in every state. -/
def Obligations.FetchWordIsRunByTheNextStep : Prop :=
  ∀ (s : State) (nbits w : Nat) (i : Instr), decodeTableWord nbits w = some i →
    step (s.withFetchWord nbits w) = endCycleOf (exec i (s.withFetchWord nbits w)) ∧
    (s.withFetchWord nbits w).slots = s.slots ∧ (s.withFetchWord nbits w).out = s.out

/-- A cycle in which no frame is accepted: an empty slot enters, the head leaves, and neither `frame_in` nor anything else
on the ports is read. The pipeline is the spec's own decision D5. -/
def Obligations.IdleCycleShiftsInAnEmptySlot : Prop :=
  ∀ (s : State) (p : InPorts) (ps : List InPorts), s.inputs = p :: ps → p.inValid = false →
    (p.rst = false ∨ s.slots = []) →
    ∃ t, step s = .next t ∧ s.slots ++ [none] = t.out :: t.slots ∧ t.inputs = ps ∧ t.returned = none

/-- A reset cycle, whatever `in_valid` and `frame_in` are: every slot is empty and nothing is presented, so that the
machine is the one right after reset with the inputs to come. The reset is the spec's own decision D12. -/
def Obligations.ResetCycleEmptiesEverySlot : Prop :=
  ∀ (s : State) (p : InPorts) (ps : List InPorts), s.inputs = p :: ps → p.rst = true → 0 < s.latency →
    step s = .next { State.resetWith s.latency with inputs := ps }

/-- With `LATENCY = 0` there is no state and no `rst` port: the outputs of a cycle are DECODE of its frame, or nothing.
Rests on the spec's own decisions D4, D5 and D12. -/
def Obligations.ZeroLatencyIsCombinational : Prop :=
  ∀ s : State, s.latency = 0 → ∃ t, step s = .next t ∧ t.slots = [] ∧ t.inputs = s.inputs.tail ∧
    t.out = if (s.inputAt 0).inValid then some (decodeResult (Frame.unpack (s.inputAt 0).frameIn)) else none

/-- The block never stops: every operation and every cycle, from every state, goes on to a next state, and so does every
run. -/
def Obligations.BlockNeverTrapsOrRefuses : Prop :=
  (∀ (i : Instr) (s : State), ∃ t, exec i s = .next t) ∧ ∀ (n : Nat) (s : State), SafeRun n s

/-- LATENCY is fixed: no operation, no cycle and no run changes the number of slots. -/
def Obligations.LatencyNeverChanges : Prop :=
  (∀ (i : Instr) (s t : State), exec i s = .next t → t.latency = s.latency) ∧
  ∀ (n : Nat) (s t : State), cycles n s = .next t → t.latency = s.latency

/-- The invariant: everything in a slot or on the outputs is a Result of DECODE, and no unit holds a value. Every step
keeps it. -/
def Obligations.StepKeepsOnlyDecodeResultsInThePipeline : Prop :=
  ∀ s t : State, s.Inv → step s = .next t → t.Inv

/-- The invariant holds after reset, at every LATENCY and at the OPEN one. -/
def Obligations.ResetHoldsOnlyDecodeResults : Prop :=
  (∀ n, (State.resetWith n).Inv) ∧ State.reset.Inv

/-- Under the invariant every ChecksumMismatch in the pipeline or on the outputs holds two different bytes, and every
measurement has a clear sign bit, lies in the range of R79 and is a raw value divided by ten. Inferred from R70, R77 and
R79. -/
def Obligations.PipelineResultsMeanWhatTheySay : Prop :=
  ∀ (s : State) (r : Result), s.Inv → (some r ∈ s.slots ∨ s.out = some r) →
    (∀ p q, r = .ok p q → p.msb = false ∧ q.msb = false ∧ p.toNat ≤ 0x45CCCC00 ∧ q.toNat ≤ 0x45CCCC00 ∧
      ∃ a b : Half, f32Div (f32OfNat a.toNat) Config.scale = some p ∧ f32Div (f32OfNat b.toNat) Config.scale = some q) ∧
    ∀ e a, r = .checksumMismatch e a → e ≠ a

/-- What reset leaves: LATENCY empty slots and `out_valid = 0`. That the input list is empty and no value is handed on is
the model's own choice (logs 3 and 6). -/
def Obligations.ResetLeavesEmptySlotsAndNoResult : Prop :=
  State.reset.slots = List.replicate Config.latency none ∧ State.reset.latency = Config.latency ∧
  State.reset.outPorts.outValid = false ∧ State.reset.inputs = [] ∧ State.reset.returned = none

/-! ### Runs of cycles: timing, order, independence -/

/-- A frame accepted in cycle `t` is presented in cycle `t + L`, and no result where no frame was accepted, if no cycle
from `t` to `t + L` is a reset. From every state, at every LATENCY. The timing is the spec's own decisions D4 and D12;
cycles past the listed inputs are idle (log 3). -/
def Obligations.ResultIsPresentedLatencyCyclesLater : Prop :=
  ∀ (s : State) (t : Nat), (∀ r, t ≤ r → r ≤ t + s.latency → s.resetAt r = false) →
    ∃ u, cycles (t + s.latency + 1) s = .next u ∧ u.out = (s.inputAt t).enters

/-- A frame of cycle `t` is dropped, with no result and no failure, if some cycle from `t` to `t + L` is a reset. The
reset is the spec's own decision D12. -/
def Obligations.ResetDropsTheFramesInFlight : Prop :=
  ∀ (s : State) (t r : Nat), t ≤ r → r ≤ t + s.latency → s.resetAt r = true →
    ∃ u, cycles (t + s.latency + 1) s = .next u ∧ u.out = none

/-- Results leave in acceptance order, none dropped, merged, duplicated or invented: over any cycles without reset, what
was presented followed by what still stands in the slots is what stood in them followed by what entered. The order is the
spec's own decision D4. -/
def Obligations.ResultsLeaveInOrderNoneLostOrAdded : Prop :=
  ∀ (n : Nat) (s : State), (∀ r, r < n → s.resetAt r = false) →
    ∃ u, cycles n s = .next u ∧
      outputs n s ++ u.slots = s.slots ++ (List.range n).map fun t => (s.inputAt t).enters

/-- No hidden state: two machines of one LATENCY with the same inputs agree on every slot after LATENCY cycles and on
every output after that, whatever stood in their slots and whatever failures came before. -/
def Obligations.EarlierTransactionsLeaveNoTrace : Prop :=
  ∀ (s1 s2 : State) (n : Nat), s1.inputs = s2.inputs → s1.latency = s2.latency → s1.latency ≤ n →
    ∃ u1 u2, cycles n s1 = .next u1 ∧ cycles n s2 = .next u2 ∧
      u1.slots = u2.slots ∧ u1.inputs = u2.inputs ∧ (s1.latency < n → u1.out = u2.out)

/-! ### Ports and the frame window -/

/-- The drive of the output ports: the tag and the payload of the Result presented, no value for a port it does not
select, and none but `out_valid` when nothing is presented. The codes and the ports are the spec's own decisions D6, D7
and D19. -/
def Obligations.ResultDrivesTheSelectedPortsOnly : Prop :=
  ∀ s : State,
    (s.out = none → s.outPorts = ⟨false, none, none, none, none, none, none, none⟩) ∧
    (∀ p q, s.out = some (.ok p q) → s.outPorts = ⟨true, some 0b00, some p, some q, none, none, none, none⟩) ∧
    (∀ h t, s.out = some (.invalidHeader h t) →
      s.outPorts = ⟨true, some 0b01, none, none, some h, some t, none, none⟩) ∧
    (∀ e a, s.out = some (.checksumMismatch e a) →
      s.outPorts = ⟨true, some 0b10, none, none, none, none, some e, some a⟩)

/-- The reserved status code is never driven; a consumer reads back the tag from every other code and faults on that one
alone. The codes are the spec's own decision D6; that the read faults follows 93_implementation_defined.md. -/
def Obligations.ReservedStatusIsNeverDriven : Prop :=
  (∀ s : State, s.outPorts.status ≠ some 0b11) ∧ (∀ r : Result, readStatus r.kind.code = .ok r.kind) ∧
  ∀ b : BitVec 2, readStatus b = .error .reservedStatus ↔ b = 0b11

/-- The frame window in a cycle that accepts a frame: offsets 0 to 9 read the lanes of the port, any other offset does not
exist and faults; in a cycle that accepts none there is no window. Its form is always canonical (log 9). -/
def Obligations.WindowHasTheTenBytesOfTheFrame : Prop :=
  ∀ s : State, s.window.wf = true ∧
    (∀ w, s.sample = .frame w → ∀ a,
      (a < 10 → s.readByte a = .ok (w.extractLsb' (8 * a) 8)) ∧
      (10 ≤ a → s.readByte a = .error (.outsideWindow a))) ∧
    ((∀ w, s.sample ≠ .frame w) → ∀ a, s.readByte a = .error (.outsideWindow a))
end

