-- ==== Sys2Proof/Laws/PerInstr.lean ====
section
/-! SUPPORT. Per-instruction family `Format`: an operation has a port value exactly when the opcode table gives it the
format FRAME80 (30_encoding.md R45, R55). -/

namespace Sys2Proof.Laws.Format

/-- The operation is encoded exactly when its format is FRAME80. -/
def Statement (i : Instr) : Prop := (encode i).isSome = true ↔ i.format = .frame80

theorem decode (f : Frame) : Statement (.decode f) := by simp [Statement, encode, Instr.format]
theorem decodeSyncBad (f : Frame) : Statement (.decodeSyncBad f) := by simp [Statement, encode, Instr.format]
theorem syncCheck (f : Frame) : Statement (.syncCheck f) := by simp [Statement, encode, Instr.format]
theorem csum8 (f : Frame) : Statement (.csum8 f) := by simp [Statement, encode, Instr.format]
theorem csumCmp (f : Frame) : Statement (.csumCmp f) := by simp [Statement, encode, Instr.format]
theorem le16 (lo hi : Byte) : Statement (.le16 lo hi) := by simp [Statement, encode, Instr.format]
theorem extractPm25 (f : Frame) : Statement (.extractPm25 f) := by simp [Statement, encode, Instr.format]
theorem extractPm10 (f : Frame) : Statement (.extractPm10 f) := by simp [Statement, encode, Instr.format]
theorem scale10 (raw : Half) : Statement (.scale10 raw) := by simp [Statement, encode, Instr.format]

end Sys2Proof.Laws.Format
end

