-- ==== Sys2Proof/Laws/State.lean ====
section
/-! SUPPORT. What each update of State does to each field, so that no later proof unfolds a record update. -/

namespace Sys2Proof.Machine

section
variable (s : State) (r : Option Result) (v : UnitValue) (w : FrameWord) (n : Nat)

@[simp] theorem State.shift_inputs : (s.shift r).inputs = s.inputs := rfl
@[simp] theorem State.shift_slots : (s.shift r).slots = (s.slots ++ [r]).tail := rfl
@[simp] theorem State.shift_out : (s.shift r).out = (s.slots ++ [r]).headD none := rfl
@[simp] theorem State.shift_returned : (s.shift r).returned = none := rfl

@[simp] theorem State.flush_inputs : s.flush.inputs = s.inputs := rfl
@[simp] theorem State.flush_slots : s.flush.slots = s.slots.map fun _ => none := rfl
@[simp] theorem State.flush_out : s.flush.out = none := rfl
@[simp] theorem State.flush_returned : s.flush.returned = none := rfl

@[simp] theorem State.give_inputs : (s.give v).inputs = s.inputs := rfl
@[simp] theorem State.give_slots : (s.give v).slots = s.slots := rfl
@[simp] theorem State.give_out : (s.give v).out = s.out := rfl
@[simp] theorem State.give_returned : (s.give v).returned = some v := rfl

@[simp] theorem State.endCycle_inputs : s.endCycle.inputs = s.inputs.tail := rfl
@[simp] theorem State.endCycle_slots : s.endCycle.slots = s.slots := rfl
@[simp] theorem State.endCycle_out : s.endCycle.out = s.out := rfl
@[simp] theorem State.endCycle_returned : s.endCycle.returned = s.returned := rfl

@[simp] theorem State.present_inputs : (s.present w).inputs = InPorts.decode w :: s.inputs.tail := rfl
@[simp] theorem State.present_slots : (s.present w).slots = s.slots := rfl
@[simp] theorem State.present_out : (s.present w).out = s.out := rfl
@[simp] theorem State.present_returned : (s.present w).returned = s.returned := rfl

@[simp] theorem State.resetWith_inputs : (State.resetWith n).inputs = [] := rfl
@[simp] theorem State.resetWith_slots : (State.resetWith n).slots = List.replicate n none := rfl
@[simp] theorem State.resetWith_out : (State.resetWith n).out = none := rfl
@[simp] theorem State.resetWith_returned : (State.resetWith n).returned = none := rfl

@[simp] theorem endCycleOf_next : endCycleOf (.next s) = .next s.endCycle := rfl

end

/-- Two states are equal when their fields are. -/
theorem State.ext_fields {s t : State} (hi : s.inputs = t.inputs) (hs : s.slots = t.slots) (ho : s.out = t.out)
    (hr : s.returned = t.returned) : s = t := by
  cases s; cases t; simp_all

end Sys2Proof.Machine
end

