-- ==== Sys2Proof/Laws/Pipeline.lean ====
section
/-! SUPPORT. The pipeline: what a shift, a reset and a step can do, said once. -/

namespace Sys2Proof.Machine

/-- A shift is a queue: what was in the slots, followed by what enters, is what leaves, followed by what stays. -/
theorem State.shift_queue (s : State) (r : Option Result) :
    s.slots ++ [r] = (s.shift r).out :: (s.shift r).slots := by
  cases h : s.slots <;> simp [h]

theorem State.shift_latency (s : State) (r : Option Result) : (s.shift r).latency = s.latency := by
  simp [State.latency]

theorem State.flush_latency (s : State) : s.flush.latency = s.latency := by
  simp [State.latency]

theorem State.give_latency (s : State) (v : UnitValue) : (s.give v).latency = s.latency := rfl

theorem State.endCycle_latency (s : State) : s.endCycle.latency = s.latency := rfl

/-- Whatever stands in a slot or on the outputs after a shift stood in a slot before it or has just entered. -/
theorem State.shift_source {s : State} {r : Option Result} {x : Result}
    (h : some x ∈ (s.shift r).slots ∨ (s.shift r).out = some x) : some x ∈ s.slots ∨ r = some x := by
  have hq : some x ∈ (s.shift r).out :: (s.shift r).slots := by
    rcases h with h | h
    · exact List.mem_cons_of_mem _ h
    · exact h ▸ List.mem_cons_self
  rw [← State.shift_queue] at hq
  rcases List.mem_append.mp hq with h | h
  · exact .inl h
  · exact .inr (List.mem_singleton.mp h).symm

/-- The `rst` port exists exactly when there is a slot. -/
theorem State.hasRst_iff (s : State) : s.hasRst = true ↔ 0 < s.latency := by
  cases h : s.slots <;> simp [State.hasRst, State.latency, h]

/-- After a reset cycle every slot is empty. -/
theorem State.flush_empty (s : State) : s.flush.slots = List.replicate s.latency none := by
  simp [State.latency, List.map_const']

/-- Everything a cycle can sample, with what the ports then hold. -/
theorem State.sample_cases (s : State) :
    (s.sample = .idle ∧ s.inputs = []) ∨
    ∃ p ps, s.inputs = p :: ps ∧
      ((s.sample = .reset ∧ p.rst = true ∧ s.hasRst = true) ∨
       (s.sample = .idle ∧ (p.rst && s.hasRst) = false ∧ p.inValid = false) ∨
       (s.sample = .frame p.frameIn ∧ (p.rst && s.hasRst) = false ∧ p.inValid = true)) := by
  cases hi : s.inputs with
  | nil => exact .inl ⟨by simp [State.sample, hi], rfl⟩
  | cons p ps =>
    refine .inr ⟨p, ps, rfl, ?_⟩
    by_cases hr : (p.rst && s.hasRst) = true
    · exact .inl ⟨by simp only [State.sample, hi, hr, if_true], by simpa using hr⟩
    · cases hv : p.inValid
      · exact .inr (.inl ⟨by simp [State.sample, hi, hr, hv], by simpa using hr, rfl⟩)
      · exact .inr (.inr ⟨by simp [State.sample, hi, hr, hv], by simpa using hr, rfl⟩)

/-- Everything a step that goes on can do: a reset cycle, a cycle with no frame, or the decoded operation followed by the
clock edge. -/
theorem step_cases {s t : State} (h : step s = .next t) :
    (s.sample = .reset ∧ t = s.flush.endCycle) ∨
    (s.sample = .idle ∧ t = (s.shift none).endCycle) ∨
    ∃ w u, s.sample = .frame w ∧ exec (decode w) s = .next u ∧ t = u.endCycle := by
  cases hs : s.sample with
  | reset => simp only [step, hs, Host.Outcome.next.injEq] at h; exact .inl ⟨rfl, h.symm⟩
  | idle => simp only [step, hs, Host.Outcome.next.injEq] at h; exact .inr (.inl ⟨rfl, h.symm⟩)
  | frame w =>
    cases hx : exec (decode w) s with
    | next u =>
      simp only [step, hs, hx, endCycleOf_next, Host.Outcome.next.injEq] at h
      exact .inr (.inr ⟨w, u, rfl, hx, h.symm⟩)
    | fault r => simp [step, hs, hx, endCycleOf] at h
    | refused r => simp [step, hs, hx, endCycleOf] at h

end Sys2Proof.Machine
end

