-- ==== Sys2Proof/Laws/Units.lean ====
section
/-! SUPPORT. One lemma for each operand form and each unit's function: its value as a natural number or as cases. -/

namespace Sys2Proof.Machine

theorem zext16_toNat (b : Byte) : (zext16 b).toNat = b.toNat := by
  have := b.isLt
  simp only [zext16, BitVec.toNat_setWidth]
  omega

/-- The 16-bit sum never wraps. -/
theorem dataSum_toNat (f : Frame) :
    (dataSum f).toNat = f.pm25Lo.toNat + f.pm25Hi.toNat + f.pm10Lo.toNat + f.pm10Hi.toNat + f.res0.toNat
      + f.res1.toNat := by
  have h2 := f.pm25Lo.isLt
  have h3 := f.pm25Hi.isLt
  have h4 := f.pm10Lo.isLt
  have h5 := f.pm10Hi.isLt
  have h6 := f.res0.isLt
  have h7 := f.res1.isLt
  simp only [dataSum, BitVec.toNat_add, zext16_toNat]
  omega

theorem csumCmp_fst (f : Frame) : (csumCmp f).1 = true ↔ csum8 f = f.checksum := by
  simp [csumCmp]

theorem csumCmp_snd (f : Frame) : (csumCmp f).2 = csum8 f := rfl

/-- Everything DECODE can answer, with the checks that lead to it. -/
theorem decodeResult_cases (f : Frame) :
    (syncCheck f = false ∧ decodeResult f = syncFailure f) ∨
    (syncCheck f = true ∧ csum8 f ≠ f.checksum ∧ decodeResult f = .checksumMismatch f.checksum (csum8 f)) ∨
    (syncCheck f = true ∧ csum8 f = f.checksum ∧ decodeResult f = message f) := by
  cases hs : syncCheck f with
  | false => exact .inl ⟨rfl, by simp [decodeResult, hs]⟩
  | true =>
    by_cases hc : csum8 f = f.checksum
    · exact .inr (.inr ⟨rfl, hc, by simp [decodeResult, hs, csumCmp, hc]⟩)
    · have hb : (csum8 f == f.checksum) = false := by simpa using hc
      exact .inr (.inl ⟨rfl, hc, by simp [decodeResult, hs, csumCmp, hb]⟩)

end Sys2Proof.Machine
end

