-- ==== Sys2Proof/Laws/Window.lean ====
section
/-! SUPPORT. The frame window: it has the canonical form, and no operation changes a byte of it. -/

namespace Sys2Proof.Machine

theorem windowOf_wf (f : Frame) : Memory.wf (windowOf f) = true := rfl

/-- The window of every state, the reset state among them, has the canonical form. -/
theorem State.window_wf (s : State) : s.window.wf = true := by
  unfold State.window
  cases s.sample <;> rfl

theorem State.window_reset (n : Nat) : (State.resetWith n).window = [] := rfl

/-- A read of a listed byte; the window lists offset 0 to 9. -/
theorem windowOf_read (f : Frame) (k : Fin 10) : (windowOf f).read k = .ok (f.byte k) := by
  fin_cases k <;> rfl

theorem State.sample_shift (s : State) (r : Option Result) : (s.shift r).sample = s.sample := by
  cases h : s.slots <;> simp [State.sample, State.hasRst, h]

theorem State.sample_give (s : State) (v : UnitValue) : (s.give v).sample = s.sample := rfl

/-- A shift leaves the window as it was. -/
theorem State.window_shift (s : State) (r : Option Result) : (s.shift r).window = s.window := by
  simp only [State.window, State.sample_shift]

/-- Handing a value on leaves the window as it was. -/
theorem State.window_give (s : State) (v : UnitValue) : (s.give v).window = s.window := rfl

end Sys2Proof.Machine
end

