-- ==== Sys2Proof/Tests/Slice0.lean ====
section
/-! SUPPORT. The model's own tests: ill-formed terms, decoding of words written out from the spec, one step of each
operation on vectors of 95_test_vectors.md, and for each statement with hypotheses a witness that meets them. -/

namespace Sys2Proof.Tests

open Sys2Proof.Machine

/-- The next state of an outcome, if it is one. -/
def nextOf : Host.Outcome State Fault Refusal → Option State
  | .next t => some t
  | .fault _ => none
  | .refused _ => none

/-- V1: `Ok`, 1.3 and 2.1. -/
def v1 : Frame := ⟨170, 192, 13, 0, 21, 0, 64, 147, 245, 171⟩

/-- V1 on the port, written out in 95_test_vectors.md. -/
def v1Word : FrameWord := 0xAB_F5_93_40_00_15_00_0D_C0_AA

/-- V1's Result. -/
def v1Result : Result := .ok 0x3FA66666 0x40066666

/-- V2: a window that is shifted by one, `InvalidHeader`. -/
def v2 : Frame := ⟨192, 14, 1, 21, 0, 64, 147, 246, 171, 170⟩

/-- V3.0: V1 with a checksum byte of 0, `ChecksumMismatch`. -/
def v3 : Frame := ⟨170, 192, 13, 0, 21, 0, 64, 147, 0, 171⟩

/-- A machine of `LATENCY` 2 with V1's Result next to leave, and the given inputs. -/
def small (inputs : List InPorts) : State := ⟨inputs, [some v1Result, none], none, none⟩

/-! ### Well-formedness: one ill-formed term for each check -/

theorem test_wellFormed_refuses_decode_of_bad_sync : (Instr.decode v2).wellFormed = false := by decide
theorem test_wellFormed_refuses_sync_bad_of_good_sync : (Instr.decodeSyncBad v1).wellFormed = false := by decide

/-! ### Decoding: words written out from the pattern of R47, and bytes that are no frame -/

theorem test_decode_v1 : decode v1Word = .decode v1 := by decide
theorem test_decode_v2 : decode 0xAA_AB_F6_93_40_00_15_01_0E_C0 = .decodeSyncBad v2 := by decide
theorem test_decode_every_field : decode
    0b10101011_10000001_01000010_00100100_0001100011111111_1010010100000011_11000000_10101010
    = .decode ⟨0xAA, 0xC0, 0x03, 0xA5, 0xFF, 0x18, 0x24, 0x42, 0x81, 0xAB⟩ := by decide
theorem test_decode_bad_command : decode 0xAB_F5_93_40_00_15_00_0D_C5_AA
    = .decodeSyncBad ⟨170, 197, 13, 0, 21, 0, 64, 147, 245, 171⟩ := by decide
theorem test_decodeBytes_v1 : decodeBytes [170, 192, 13, 0, 21, 0, 64, 147, 245, 171] = .ok (.decode v1) := by decide
theorem test_decodeBytes_short : decodeBytes [170, 192, 13] = .error (.wrongLength 3) := by decide
theorem test_decodeTableWord_v1 : decodeTableWord 80 0xABF593400015000DC0AA = some (.decode v1) := by decide
theorem test_decodeTableWord_too_long : decodeTableWord 88 0xABF593400015000DC0AA = none := by decide
theorem test_internal_has_no_word : [Instr.syncCheck v1, .csum8 v1, .csumCmp v1, .le16 1 2, .extractPm25 v1,
    .extractPm10 v1, .scale10 13].map encode = List.replicate 7 none := by decide

/-! ### The operations, on vectors of 95_test_vectors.md -/

theorem test_decode_results : [v1, v2, v3, ⟨170, 192, 255, 1, 0, 0, 0, 0, 0, 171⟩].map decodeResult
    = [v1Result, .invalidHeader 192 170, .checksumMismatch 0 245, .ok 0x424C6666 0x00000000] := by decide
theorem test_decode_enters_pipeline : nextOf (exec (.decode v3) (small []))
    = some ⟨[], [none, some (.checksumMismatch 0 245)], some v1Result, none⟩ := by decide
theorem test_sync_bad_f3 : (nextOf (exec (.decodeSyncBad ⟨170, 197, 13, 0, 21, 0, 64, 147, 245, 171⟩)
    (State.resetWith 0))).map (·.out) = some (some (.invalidHeader 170 171)) := by decide
theorem test_sync_check : [v1, v2, ⟨171, 192, 13, 0, 21, 0, 64, 147, 245, 170⟩].map syncCheck = [true, false, false] := by
  decide
theorem test_sync_check_returns : (nextOf (exec (.syncCheck v2) (small []))).map (·.returned)
    = some (some (.sync false)) := by decide
theorem test_csum8_wraps : csum8 ⟨0, 0, 255, 255, 255, 255, 255, 255, 9, 9⟩ = 250 := by decide
theorem test_csum8_returns : (nextOf (exec (.csum8 ⟨0, 0, 100, 100, 100, 0, 0, 0, 0, 0⟩) (small []))).map (·.returned)
    = some (some (.csum 44)) := by decide
theorem test_csumCmp_c10 : csumCmp ⟨170, 192, 13, 0, 21, 0, 64, 147, 234, 171⟩ = (false, 245) := by decide
theorem test_csumCmp_returns : (nextOf (exec (.csumCmp v1) (small []))).map (·.returned)
    = some (some (.compare true 245)) := by decide
theorem test_le16_order : le16 0x34 0x12 = 0x1234 := by decide
theorem test_le16_returns : (nextOf (exec (.le16 0x00 0xFF) (small []))).map (·.returned)
    = some (some (.raw 65280)) := by decide
theorem test_extractPm25_returns : (nextOf (exec (.extractPm25 ⟨170, 192, 0, 1, 1, 0, 0, 0, 2, 171⟩) (small []))).map
    (·.returned) = some (some (.raw 256)) := by decide
theorem test_extractPm10_returns : (nextOf (exec (.extractPm10 ⟨170, 192, 232, 3, 16, 39, 0, 0, 34, 171⟩) (small []))).map
    (·.returned) = some (some (.raw 10000)) := by decide
theorem test_scale10_table : [0, 1, 5, 13, 21, 99, 999, 4096, 32767, 43882, 65534, 65535].map scale10
    = [0x00000000, 0x3DCCCCCD, 0x3F000000, 0x3FA66666, 0x40066666, 0x411E6666, 0x42C7CCCD, 0x43CCCCCD, 0x454CCB33,
      0x4589219A, 0x45CCCB33, 0x45CCCC00] := by decide
theorem test_scale10_returns : (nextOf (exec (.scale10 511) (small []))).map (·.returned)
    = some (some (.scaled 0x424C6666)) := by decide

/-! ### One cycle: programs P1 to P3, a cycle each -/

theorem test_step_p2_cycle_2 : nextOf (step (small [InPorts.decode 0xAB_00_93_40_00_15_00_0D_C0_AA, InPorts.idle 7]))
    = some ⟨[InPorts.idle 7], [none, some (.checksumMismatch 0 245)], some v1Result, none⟩ := by decide
theorem test_step_p3_reset : nextOf (step (small [InPorts.reset true v1Word]))
    = some (State.resetWith 2) := by decide
theorem test_step_idle_when_no_input_is_left : nextOf (step (small []))
    = some ⟨[], [none, none], some v1Result, none⟩ := by decide
theorem test_step_combinational_ignores_rst : nextOf (step ⟨[InPorts.reset true v1Word], [], none, none⟩)
    = some ⟨[], [], some v1Result, none⟩ := by decide
theorem test_step_p4_false_sync : (nextOf (step ⟨[InPorts.decode 0xAB_7F_C0_AA_AB_6A_00_00_C0_AA], [], none, none⟩)).map
    (·.out) = some (some (.ok 0 0x4589219A)) := by decide
theorem test_step_after_reset_runs_table_word : step (State.reset.withFetchWord 80 0xABF593400015000DC0AA)
    = endCycleOf (exec (.decode v1) (State.reset.withFetchWord 80 0xABF593400015000DC0AA)) := by rfl
theorem test_ports_of_failure : State.outPorts ⟨[], [], some (.checksumMismatch 0 245), none⟩
    = ⟨true, some 0b10, none, none, none, none, some 0, some 245⟩ := by decide
theorem test_window_read : (small [InPorts.decode v1Word]).readByte 7 = .ok 147 := by decide

/-! ### Witnesses: each statement's hypotheses are met, clause by clause -/

theorem witness_DecodeOfEncode : (Instr.decode v1).wellFormed = true ∧ encode (.decode v1) = some v1Word ∧
    (Instr.decodeSyncBad v2).wellFormed = true ∧ (encodeBytes (.decodeSyncBad v2)).isSome = true := by decide
theorem witness_OnlyTenBytes : (v1.bytes).length = 10 ∧ ([] : List Byte).length ≠ 10 ∧
    (0 :: v1.bytes).length ≠ 10 := by decide
theorem witness_OneClass : v2.pack &&& syncMask ≠ syncMatch ∧
    (v3.pack &&& syncMask = syncMatch ∧ csum8 (Frame.unpack v3.pack) ≠ (Frame.unpack v3.pack).byte 8) ∧
    (v1Word &&& syncMask = syncMatch ∧ csum8 (Frame.unpack v1Word) = (Frame.unpack v1Word).byte 8) := by decide
theorem witness_OnlyActiveModePush : { v1 with command := 0xC1 }.byte 1 ≠ 0xC0 := by decide
theorem witness_SyncFailureIsAResult : syncCheck (Frame.unpack 0) = false := by decide
theorem witness_SyncCheckReadsThree : v1.byte 0 = v3.byte 0 ∧ v1.byte 1 = v3.byte 1 ∧ v1.byte 9 = v3.byte 9 ∧ v1 ≠ v3 := by
  decide
theorem witness_ChecksumOrder : [147, 64, 0, 21, 0, 13].Perm
    [v1.byte 2, v1.byte 3, v1.byte 4, v1.byte 5, v1.byte 6, v1.byte 7] ∧ 11 ≤ 11 := by decide
theorem witness_ChecksumWraps : (255 : Byte).toNat + (1 : Byte).toNat + 0 + 0 + 0 + 0 = 256 ∧
    (255 : Byte).toNat * 6 = 1530 := by decide
theorem witness_ChecksumCompare : syncCheck v3 = true ∧ (csumCmp v3).1 = false ∧
    decodeResult v3 = .checksumMismatch 0 245 := by decide
theorem witness_OneChangedByte : decodeResult v1 = v1Result ∧
    (∀ j, j ≠ 2 → v1.byte j = { v1 with pm25Lo := 12 }.byte j) ∧ v1.byte 2 ≠ { v1 with pm25Lo := 12 }.byte 2 ∧
    (∀ j, j ≠ 7 → v1.byte j = { v1 with res1 := 0 }.byte j) ∧ v1.byte 7 ≠ { v1 with res1 := 0 }.byte 7 := by decide
theorem witness_ScalingAlgorithm : (10 * 2 ^ 0 ≤ 16 * (1 : Half).toNat ∧ 16 * (1 : Half).toNat < 10 * 2 ^ 1) ∧
    (10 * 2 ^ 16 ≤ 16 * (65535 : Half).toNat ∧ 16 * (65535 : Half).toNat < 10 * 2 ^ 17) := by decide
theorem witness_ScaledValues : (1 : Half) ≠ 0 ∧ f32IsFinite 0x7F7FFFFF = true ∧ (0 : Half) < 1 ∧ 0 ≠ (1 : Half).toNat ∧
    scale10 13 = scale10 13 := by decide
theorem witness_DecodeSteps : ¬ (v2.byte 0 = 0xAA ∧ v2.byte 1 = 0xC0 ∧ v2.byte 9 = 0xAB) ∧
    (v3.byte 0 = 0xAA ∧ v3.byte 1 = 0xC0 ∧ v3.byte 9 = 0xAB ∧ 245 % 256 ≠ (v3.byte 8).toNat) ∧
    (v1.byte 0 = 0xAA ∧ v1.byte 1 = 0xC0 ∧ v1.byte 9 = 0xAB ∧ 245 % 256 = (v1.byte 8).toNat) := by decide
theorem witness_InvalidHeader : syncCheck v2 = false ∧ csum8 v2 ≠ v2.byte 8 ∧
    { v1 with command := 0xC5 }.byte 0 = 0xAA ∧ { v1 with command := 0xC5 }.byte 1 ≠ 0xC0 ∧
    { v1 with command := 0xC5 }.byte 9 = 0xAB := by decide
theorem witness_NoMessage : decodeResult v1 = .ok 0x3FA66666 0x40066666 ∧ syncCheck v2 = false ∧
    csum8 v3 ≠ v3.byte 8 := by decide
theorem witness_ReservedBytes : syncCheck v3 = true := by decide
theorem witness_MessageDetermines : decodeResult v1 = v1Result ∧
    decodeResult { v1 with res0 := 0, res1 := 0, checksum := 34 } = v1Result := by decide
theorem witness_InternalFrame : (Instr.csum8 v1).format = .internal ∧
    nextOf (exec (.csum8 v1) (small [])) = some { small [] with returned := some (.csum 245) } := by decide
theorem witness_FrameOpsFrame : (Instr.decode v3).format = .frame80 ∧ 0 + 1 < (small []).slots.length ∧
    (nextOf (exec (.decode v3) (small []))).isSome = true := by decide
theorem witness_Sequence : ∃ s s1 s2 s3 s4 s5 s6 : State,
    exec (.syncCheck v1) s = .next s1 ∧ s1.returned = some (.sync true) ∧
    exec (.csumCmp v1) s1 = .next s2 ∧ s2.returned = some (.compare true 245) ∧
    exec (.extractPm25 v1) s2 = .next s3 ∧ s3.returned = some (.raw 13) ∧
    exec (.scale10 13) s3 = .next s4 ∧ s4.returned = some (.scaled 0x3FA66666) ∧
    exec (.extractPm10 v1) s4 = .next s5 ∧ s5.returned = some (.raw 21) ∧
    exec (.scale10 21) s5 = .next s6 ∧ s6.returned = some (.scaled 0x40066666) :=
  ⟨small [], _, _, _, _, _, _, rfl, by decide, rfl, by decide, rfl, by decide, rfl, by decide, rfl, by decide, rfl,
    by decide⟩
theorem witness_StepRuns : (small [InPorts.decode v1Word]).inputs = [InPorts.decode v1Word] ∧
    (InPorts.decode v1Word).inValid = true ∧ (InPorts.decode v1Word).rst = false ∧ decode v1Word = .decode v1 ∧
    (⟨[InPorts.reset true v1Word], [], none, none⟩ : State).slots = [] := by decide
theorem witness_FetchWord : decodeTableWord 80 0xABF593400015000DC0AA = some (.decode v1) ∧
    decodeTableWord 16 0xC0AA = some (.decodeSyncBad ⟨0xAA, 0xC0, 0, 0, 0, 0, 0, 0, 0, 0⟩) := by decide
theorem witness_Idle : (small [InPorts.idle 7]).inputs = [InPorts.idle 7] ∧ (InPorts.idle 7).inValid = false ∧
    (InPorts.idle 7).rst = false := by decide
theorem witness_Reset : (InPorts.reset true 7).rst = true ∧ 0 < (State.resetWith 1).latency := by decide
theorem witness_ZeroLatency : (State.resetWith 0).latency = 0 := by decide
theorem witness_LatencyNeverChanges : (nextOf (exec (.decode v1) (small []))).isSome = true ∧
    (nextOf (cycles 1 (small []))).isSome = true := by decide

/-- V1's Result is one DECODE produces. -/
theorem v1Result_produced : v1Result.Produced := ⟨v1, by decide⟩

theorem witness_Inv : (small []).Inv ∧ some v1Result ∈ (small []).slots ∧ (nextOf (step (small []))).isSome = true :=
  ⟨⟨by simpa [small] using v1Result_produced, by simp [small], rfl⟩, by decide, by decide⟩
theorem witness_ResultIsPresented : ∀ r, 0 ≤ r → r ≤ 0 + (small [InPorts.decode v1Word]).latency →
    (small [InPorts.decode v1Word]).resetAt r = false := by
  intro r _ h
  have : r ≤ 2 := by simpa [small, State.latency] using h
  interval_cases r <;> decide
theorem witness_ResetDrops : 0 ≤ 2 ∧ 2 ≤ 0 + (small [InPorts.decode v1Word, InPorts.idle 0, InPorts.reset false 0]).latency ∧
    (small [InPorts.decode v1Word, InPorts.idle 0, InPorts.reset false 0]).resetAt 2 = true := by decide
theorem witness_Order : ∀ r, r < 2 → (small [InPorts.decode v1Word, InPorts.idle 0]).resetAt r = false := by decide
theorem witness_NoTrace : (small [InPorts.decode v1Word]).inputs = { State.resetWith 2 with inputs := [InPorts.decode v1Word] }.inputs ∧
    (small [InPorts.decode v1Word]).latency = { State.resetWith 2 with inputs := [InPorts.decode v1Word] }.latency ∧
    (small [InPorts.decode v1Word]).latency < 3 := by decide
theorem witness_Ports : (small []).out = none ∧ (small []).outPorts.outValid = false ∧
    { small [] with out := some v1Result }.outPorts.pm25 = some 0x3FA66666 ∧
    { small [] with out := some (.invalidHeader 1 2) }.outPorts.failTail = some 2 ∧
    { small [] with out := some (.checksumMismatch 1 2) }.outPorts.csumExpected = some 1 := by decide
theorem witness_Window : (small [InPorts.decode v1Word]).sample = .frame v1Word ∧
    (small [InPorts.decode v1Word]).readByte 0 = .ok 170 ∧ (small [InPorts.decode v1Word]).readByte 9 = .ok 171 ∧
    (small [InPorts.decode v1Word]).readByte 10 = .error (.outsideWindow 10) ∧ (small []).sample = .idle := by decide

end Sys2Proof.Tests
end

/-! PROOFS. The frame on the port: packing and unpacking are inverse to each other, and the sync mask reads exactly the
three sync bytes (20_memory.md R30, 30_encoding.md R49, R53). -/

namespace Sys2Proof

/-! ### Packing and unpacking -/

/-- Above its lowest byte a word has the lanes of the rest, each one place down. -/
theorem extractLsb'_append_byte {n : Nat} (hi : BitVec n) (lo : Byte) (k : Nat) :
    (hi ++ lo).extractLsb' (k + 8) 8 = hi.extractLsb' k 8 :=
  BitVec.extractLsb'_append_eq_of_le (Nat.le_add_left 8 k)

@[simp] theorem Frame.unpack_pack (f : Frame) : Frame.unpack f.pack = f := by
  obtain ⟨b0, b1, b2, b3, b4, b5, b6, b7, b8, b9⟩ := f
  simp only [Frame.unpack, Frame.pack, Frame.mk.injEq]
  refine ⟨?_, ?_, ?_, ?_, ?_, ?_, ?_, ?_, ?_, ?_⟩ <;> repeat refine (extractLsb'_append_byte _ _ _).trans ?_
  case refine_10 => exact BitVec.extractLsb'_eq_self
  all_goals exact BitVec.extractLsb'_append_eq_right

@[simp] theorem Frame.pack_unpack (w : FrameWord) : (Frame.unpack w).pack = w := by
  simp only [Frame.unpack, Frame.pack]
  repeat rw [BitVec.extractLsb'_append_extractLsb'_eq_extractLsb' (by rfl)]
  exact BitVec.extractLsb'_eq_self

theorem Frame.unpack_inj {u w : FrameWord} : Frame.unpack u = Frame.unpack w ↔ u = w :=
  (Function.LeftInverse.injective Frame.pack_unpack).eq_iff

/-! ### The sync mask -/

/-- Masking keeps the three sync bytes and clears the seven others. -/
theorem Frame.unpack_and_syncMask (w : FrameWord) : Frame.unpack (w &&& syncMask) =
    ⟨(Frame.unpack w).header, (Frame.unpack w).command, 0, 0, 0, 0, 0, 0, 0, (Frame.unpack w).tail⟩ := by
  have hkeep (b : Byte) : b &&& 255#8 = b := BitVec.and_allOnes
  simp [Frame.unpack, syncMask, BitVec.extractLsb'_and, hkeep]

theorem Frame.syncBytesMatch_iff (f : Frame) : f.syncBytesMatch = true ↔
    f.header = Config.header ∧ f.command = Config.command ∧ f.tail = Config.tail := by
  simp [Frame.syncBytesMatch, and_assoc]

/-- The mask test of R49 is the test of the three sync bytes. -/
theorem and_syncMask_eq_iff (w : FrameWord) :
    w &&& syncMask = syncMatch ↔ (Frame.unpack w).syncBytesMatch = true := by
  have hmatch : Frame.unpack syncMatch = ⟨Config.header, Config.command, 0, 0, 0, 0, 0, 0, 0, Config.tail⟩ := by decide
  rw [← Frame.unpack_inj, Frame.unpack_and_syncMask, hmatch, Frame.syncBytesMatch_iff]
  simp

/-! ### The decoder and the classes -/

/-- The decoder selects the FRAME80 row by the sync bytes and gives it the unpacked frame. -/
theorem decode_eq (w : FrameWord) : decode w =
    if (Frame.unpack w).syncBytesMatch then .decode (Frame.unpack w) else .decodeSyncBad (Frame.unpack w) := by
  simp only [decode, and_syncMask_eq_iff]

theorem Machine.classify_eq_syncBad_iff (w : FrameWord) :
    Machine.classify w = .syncBad ↔ (Frame.unpack w).syncBytesMatch = false := by
  rw [← Bool.not_eq_true, ← and_syncMask_eq_iff, Machine.classify]
  split
  · next h => simpa using h
  · next h => split <;> simpa using h

theorem Frame.syncBytesMatch_of_command_ne {f : Frame} (h : f.byte 1 ≠ 0xC0) : f.syncBytesMatch = false := by
  rw [← Bool.not_eq_true, Frame.syncBytesMatch_iff]
  exact fun ⟨_, hcommand, _⟩ => h hcommand

/-- Settles O6: the command byte is one of the three sync bytes the mask reads, and the decoder has two answers. -/
theorem onlyActiveModePushCommandIsDecoded : Obligations.OnlyActiveModePushCommandIsDecoded := by
  refine ⟨fun f hcommand => ?_, fun w => ?_⟩
  · have hsync := Frame.syncBytesMatch_of_command_ne hcommand
    exact ⟨by rwa [Machine.classify_eq_syncBad_iff, Frame.unpack_pack], by simp [decode_eq, hsync]⟩
  · rw [decode_eq]
    split
    · exact .inl rfl
    · exact .inr rfl

end Sys2Proof

/-! PROOFS. DECODE on the bytes of the frame: one equation for each of its three answers, and the checks each answer
tells of (40_frame_validator.md R61, R64, R67). -/

namespace Sys2Proof.Machine

/-! ### The units on the bytes of the frame -/

theorem syncCheck_eq_true_iff (f : Frame) :
    syncCheck f = true ↔ f.byte 0 = 0xAA ∧ f.byte 1 = 0xC0 ∧ f.byte 9 = 0xAB :=
  f.syncBytesMatch_iff

theorem csum8_eq_ofNat (f : Frame) : csum8 f = BitVec.ofNat 8 ((f.byte 2).toNat + (f.byte 3).toNat + (f.byte 4).toNat
    + (f.byte 5).toNat + (f.byte 6).toNat + (f.byte 7).toNat) := by
  rw [csum8, dataSum_toNat]
  exact BitVec.eq_of_toNat_eq (Nat.mod_mod _ _)

/-- The shifted high byte leaves the low byte's lane free, so the disjunction is a sum. -/
theorem le16_toNat (lo hi : Byte) : (le16 lo hi).toNat = lo.toNat + 256 * hi.toNat := by
  have hhi := hi.isLt
  have hfits : hi.toNat <<< 8 < 2 ^ 16 := by omega
  rw [le16, BitVec.toNat_or, BitVec.toNat_shiftLeft, zext16_toNat, zext16_toNat, Nat.mod_eq_of_lt hfits,
    Nat.or_comm, ← Nat.shiftLeft_add_eq_or_of_lt lo.isLt]
  omega

theorem le16_eq_ofNat (lo hi : Byte) : le16 lo hi = BitVec.ofNat 16 (lo.toNat + 256 * hi.toNat) := by
  rw [← le16_toNat, BitVec.ofNat_toNat, BitVec.setWidth_eq]

/-! ### The three answers -/

section
variable {f : Frame}

theorem decodeResult_of_sync_fails (hsync : syncCheck f = false) :
    decodeResult f = .invalidHeader (f.byte 0) (f.byte 9) := by
  obtain ⟨-, hres⟩ | ⟨hs, -⟩ | ⟨hs, -⟩ := decodeResult_cases f
  · exact hres
  all_goals simp [hs] at hsync

theorem decodeResult_of_csum_fails (hsync : syncCheck f = true) (hcsum : csum8 f ≠ f.byte 8) :
    decodeResult f = .checksumMismatch (f.byte 8) (csum8 f) := by
  obtain ⟨hs, -⟩ | ⟨-, -, hres⟩ | ⟨-, hc, -⟩ := decodeResult_cases f
  · simp [hs] at hsync
  · exact hres
  · exact absurd hc hcsum

theorem decodeResult_of_checks_pass (hsync : syncCheck f = true) (hcsum : csum8 f = f.byte 8) :
    decodeResult f = .ok (scale10 (extractPm25 f)) (scale10 (extractPm10 f)) := by
  obtain ⟨hs, -⟩ | ⟨-, hc, -⟩ | ⟨-, -, hres⟩ := decodeResult_cases f
  · simp [hs] at hsync
  · exact absurd hcsum hc
  · exact hres

end

/-! ### The statements -/

/-- Settles O22: one of the three answers for each clause, with its payload read off the bytes. -/
theorem decodeChecksSyncThenChecksumThenScales : Obligations.DecodeChecksSyncThenChecksumThenScales := by
  intro f sum
  have hcsum : csum8 f = f.byte 8 ↔ sum % 256 = (f.byte 8).toNat := by
    rw [csum8_eq_ofNat, BitVec.toNat_eq, BitVec.toNat_ofNat]
  simp only [← syncCheck_eq_true_iff, ne_eq, ← hcsum, Bool.not_eq_true, ← le16_eq_ofNat]
  refine ⟨decodeResult_of_sync_fails, fun hsync hne => ?_, decodeResult_of_checks_pass⟩
  rw [decodeResult_of_csum_fails hsync hne, csum8_eq_ofNat]

/-- Settles O26: the three answers have different tags, and each has the values of the check it stands for. -/
theorem resultTellsWhichCheckFailed : Obligations.ResultTellsWhichCheckFailed := by
  intro f
  cases hsync : syncCheck f with
  | false => simp [decodeResult_of_sync_fails hsync, eq_comm]
  | true =>
    by_cases hcsum : csum8 f = f.byte 8
    · simp [decodeResult_of_checks_pass hsync hcsum, hcsum, eq_comm]
    · simp [decodeResult_of_csum_fails hsync hcsum, hcsum, eq_comm]

/-- Settles O23: a wrong command byte alone fails the sync check, whose answer is bytes 0 and 9. -/
theorem invalidHeaderReportsObservedHeaderAndTail : Obligations.InvalidHeaderReportsObservedHeaderAndTail := by
  refine ⟨fun _ => decodeResult_of_sync_fails, fun f hheader hcommand htail => ?_⟩
  have hsync : syncCheck f = false := Frame.syncBytesMatch_of_command_ne hcommand
  rw [decodeResult_of_sync_fails hsync, hheader, htail]

end Sys2Proof.Machine

/-! PROOFS. CSUM8 is the data bytes' natural sum modulo 256, so it wraps (41_checksum_engine.md R69, R71). -/

namespace Sys2Proof.Machine

theorem csum8_toNat (f : Frame) : (csum8 f).toNat = ((f.byte 2).toNat + (f.byte 3).toNat + (f.byte 4).toNat
    + (f.byte 5).toNat + (f.byte 6).toNat + (f.byte 7).toNat) % 256 := by
  rw [csum8_eq_ofNat, BitVec.toNat_ofNat]

/-- Settles O11: both sums are read modulo 256, where 256 leaves 0 and 1530 leaves 250. -/
theorem checksumWrapsAndDoesNotSaturate : Obligations.ChecksumWrapsAndDoesNotSaturate := by
  intro f sum
  have hcsum : csum8 f = BitVec.ofNat 8 sum := csum8_eq_ofNat f
  refine ⟨csum8_toNat f, fun hsum => ?_, fun hsum => ?_⟩
  · rw [hcsum, hsum]
    rfl
  · rw [hcsum, hsum]
    rfl

end Sys2Proof.Machine

/-! PROOFS. LE16 is the sum of its bytes with the high one weighted by 256, so its halves are its bytes
(42_fixed_point_scalar.md R74). -/

namespace Sys2Proof.Machine

theorem le16_low_half (lo hi : Byte) : (le16 lo hi).extractLsb' 0 8 = lo := by
  refine BitVec.eq_of_toNat_eq ?_
  rw [BitVec.extractLsb'_toNat, le16_toNat, Nat.shiftRight_zero]
  have hlo := lo.isLt
  omega

theorem le16_high_half (lo hi : Byte) : (le16 lo hi).extractLsb' 8 8 = hi := by
  refine BitVec.eq_of_toNat_eq ?_
  rw [BitVec.extractLsb'_toNat, le16_toNat, Nat.shiftRight_eq_div_pow]
  have hlo := lo.isLt
  have hhi := hi.isLt
  omega

/-- Settles O15: the two halves recover the bytes, so the swapped value has the same low half only when they are equal. -/
theorem littleEndianAssemblyIsLowPlus256High : Obligations.LittleEndianAssemblyIsLowPlus256High := by
  refine fun lo hi => ⟨le16_toNat lo hi, le16_low_half lo hi, le16_high_half lo hi, fun hswap => ?_, fun heq => ?_⟩
  · calc lo = (le16 lo hi).extractLsb' 0 8 := (le16_low_half lo hi).symm
      _ = (le16 hi lo).extractLsb' 0 8 := by rw [hswap]
      _ = hi := le16_low_half hi lo
  · rw [heq]

end Sys2Proof.Machine

/-! PROOFS. The sync check reads bytes 0, 1 and 9 only, and its failure decides DECODE (60_exceptions.md R86). -/

namespace Sys2Proof.Machine

theorem syncCheck_congr {f g : Frame} (hheader : f.byte 0 = g.byte 0) (hcommand : f.byte 1 = g.byte 1)
    (htail : f.byte 9 = g.byte 9) : syncCheck f = syncCheck g := by
  rw [Bool.eq_iff_iff, syncCheck_eq_true_iff, syncCheck_eq_true_iff, hheader, hcommand, htail]

/-- Settles O24: the failure's answer needs no checksum, and a frame with the same sync bytes fails with the same answer. -/
theorem syncFailureWinsOverChecksumFailure : Obligations.SyncFailureWinsOverChecksumFailure := by
  refine ⟨fun _ hsync _ => decodeResult_of_sync_fails hsync, fun f g hsync hheader hcommand htail => ?_⟩
  have hsync' : syncCheck g = false := (syncCheck_congr hheader hcommand htail).symm.trans hsync
  rw [decodeResult_of_sync_fails hsync, decodeResult_of_sync_fails hsync', hheader, htail]

end Sys2Proof.Machine

/-! PROOFS. The encoder and the decoder are inverse to each other, on the port and on bytes (30_encoding.md R45 to R49,
R52). -/

namespace Sys2Proof

/-! ### Bytes and frames -/

theorem Frame.ofBytes_bytes (f : Frame) : Frame.ofBytes f.bytes = .ok f := rfl

theorem Frame.ofBytes_of_length {bs : List Byte} (h : bs.length = 10) : ∃ f : Frame, bs = f.bytes := by
  match bs, h with
  | [b0, b1, b2, b3, b4, b5, b6, b7, b8, b9], _ => exact ⟨⟨b0, b1, b2, b3, b4, b5, b6, b7, b8, b9⟩, rfl⟩

theorem Frame.ofBytes_of_length_ne {bs : List Byte} (h : bs.length ≠ 10) :
    Frame.ofBytes bs = .error (.wrongLength bs.length) := by
  unfold Frame.ofBytes
  split
  · exact absurd rfl h
  · rfl

theorem decodeBytes_bytes (f : Frame) : decodeBytes f.bytes = .ok (decode f.pack) := rfl

/-! ### The decoder after the encoder -/

theorem decode_pack (f : Frame) : decode f.pack =
    if f.syncBytesMatch then .decode f else .decodeSyncBad f := by
  rw [decode_eq, Frame.unpack_pack]

/-- The well-formed operations that have a port value are those the decoder reads from a packed frame. -/
theorem encode_wellFormed {i : Instr} {w : FrameWord} (hwf : i.wellFormed = true) (hw : encode i = some w) :
    ∃ f : Frame, w = f.pack ∧ decode f.pack = i := by
  cases i with
  | decode f =>
    obtain rfl : f.pack = w := by simpa [encode] using hw
    exact ⟨f, rfl, (decode_pack f).trans (if_pos hwf)⟩
  | decodeSyncBad f =>
    obtain rfl : f.pack = w := by simpa [encode] using hw
    exact ⟨f, rfl, (decode_pack f).trans (if_neg (by simpa [Instr.wellFormed] using hwf))⟩
  | _ => simp [encode] at hw

/-- Settles O2: a port value of a well-formed operation is a packed frame, whose bytes are that frame again. -/
theorem decodeOfEncodeGivesInstructionBack : Obligations.DecodeOfEncodeGivesInstructionBack := by
  refine fun i hwf => ⟨fun w hw => ?_, fun bs hbs => ?_⟩
  · obtain ⟨f, rfl, hf⟩ := encode_wellFormed hwf hw
    exact hf
  · obtain ⟨w, hw, rfl⟩ := Option.map_eq_some_iff.mp hbs
    obtain ⟨f, rfl, hf⟩ := encode_wellFormed hwf hw
    rw [Frame.unpack_pack, decodeBytes_bytes, hf]

/-- Settles O3: the two rows are told apart by the sync bytes, and both are encoded by packing. -/
theorem encodeOfDecodeGivesPortValueBack : Obligations.EncodeOfDecodeGivesPortValueBack := by
  intro w
  rw [decode_eq]
  split
  · next hsync => exact ⟨hsync, by simp [encode]⟩
  · next hsync => exact ⟨by simpa [Instr.wellFormed] using hsync, by simp [encode]⟩

/-- Settles O4: ten bytes are the bytes of a frame, and any other list falls through to the error. -/
theorem onlyTenBytesAreAFrame : Obligations.OnlyTenBytesAreAFrame := by
  refine fun bs => ⟨fun hlen => ?_, fun hlen => ?_⟩
  · obtain ⟨f, rfl⟩ := Frame.ofBytes_of_length hlen
    exact ⟨_, decodeBytes_bytes f⟩
  · rw [decodeBytes, Frame.ofBytes_of_length_ne hlen]
    rfl

/-- Settles O8: the mask test of each word is evaluated. -/
theorem wordsFromTheEncodingTableDecode : Obligations.WordsFromTheEncodingTableDecode := by
  refine ⟨?_, ?_, ?_, ?_⟩ <;> decide

end Sys2Proof

/-! PROOFS. The lanes of the port (20_memory.md R30): the packed frame as a sum of weighted bytes, and the 16-bit fields
as pairs of lanes. -/

namespace Sys2Proof

theorem toNat_append_byte {n : Nat} (hi : BitVec n) (lo : Byte) : (hi ++ lo).toNat = lo.toNat + 256 * hi.toNat := by
  rw [BitVec.toNat_append, ← Nat.shiftLeft_add_eq_or_of_lt lo.isLt, Nat.shiftLeft_eq]
  omega

theorem Frame.unpack_byte (w : FrameWord) (k : Fin 10) : (Frame.unpack w).byte k = w.extractLsb' (8 * k.val) 8 := by
  fin_cases k <;> rfl

/-- Settles O1: packing appends a byte below the rest, which weighs the rest by 256. -/
theorem frameLanesAreBytesInOffsetOrder : Obligations.FrameLanesAreBytesInOffsetOrder := by
  refine ⟨fun f => ?_, Frame.unpack_byte⟩
  simp only [Frame.pack, toNat_append_byte, Frame.byte]
  omega

theorem Machine.le16_eq_append (lo hi : Byte) : Machine.le16 lo hi = hi ++ lo :=
  BitVec.eq_of_toNat_eq (by rw [Machine.le16_toNat, toNat_append_byte])

/-- Two neighbouring lanes assembled by LE16 are the 16 bits they span. -/
theorem Machine.le16_lanes (w : FrameWord) (k : Nat) :
    Machine.le16 (w.extractLsb' k 8) (w.extractLsb' (k + 8) 8) = w.extractLsb' k 16 := by
  rw [Machine.le16_eq_append]
  exact BitVec.extractLsb'_append_extractLsb'_eq_extractLsb' rfl

/-- Settles O16: the fields of a frame are those of the unpacked port value, lanes 2, 3 and 4, 5. -/
theorem measurementsAreTheTwoLittleEndianFields : Obligations.MeasurementsAreTheTwoLittleEndianFields := by
  refine fun f => ⟨rfl, ?_, rfl, ?_⟩
  · calc Machine.extractPm25 f = Machine.extractPm25 (Frame.unpack f.pack) := by rw [Frame.unpack_pack]
      _ = f.pack.extractLsb' 16 16 := Machine.le16_lanes f.pack 16
  · calc Machine.extractPm10 f = Machine.extractPm10 (Frame.unpack f.pack) := by rw [Frame.unpack_pack]
      _ = f.pack.extractLsb' 32 16 := Machine.le16_lanes f.pack 32

end Sys2Proof

/-! PROOFS. The sync check, the mask test and the three classes of port values (30_encoding.md R49, R52,
40_frame_validator.md R62). -/

namespace Sys2Proof.Machine

theorem syncCheck_pack_iff (f : Frame) : syncCheck f = true ↔ f.pack &&& syncMask = syncMatch := by
  rw [and_syncMask_eq_iff, Frame.unpack_pack]
  rfl

theorem syncCheck_unpack_iff (w : FrameWord) : syncCheck (Frame.unpack w) = true ↔ w &&& syncMask = syncMatch := by
  rw [syncCheck_pack_iff, Frame.pack_unpack]

/-- The decoder's choice of a row is SYNC_CHECK of the unpacked frame. -/
theorem decode_of_syncCheck {w : FrameWord} (h : syncCheck (Frame.unpack w) = true) :
    decode w = .decode (Frame.unpack w) := by
  rw [decode, if_pos ((syncCheck_unpack_iff w).mp h)]

theorem decode_of_syncCheck_false {w : FrameWord} (h : syncCheck (Frame.unpack w) = false) :
    decode w = .decodeSyncBad (Frame.unpack w) := by
  rw [decode, if_neg (by simp [← syncCheck_unpack_iff, h])]

/-- Settles O9: packing keeps the three sync bytes where the mask looks for them. -/
theorem syncCheckTestsTheThreeSyncBytes : Obligations.SyncCheckTestsTheThreeSyncBytes :=
  ⟨syncCheck_eq_true_iff, syncCheck_pack_iff, fun _ _ => syncCheck_congr⟩

/-- Settles O5: the mask test is SYNC_CHECK, so each class has one row of the decoder and one answer of DECODE. -/
theorem everyPortValueFallsInOneClass : Obligations.EveryPortValueFallsInOneClass := by
  refine fun w => ⟨fun hmask => ?_, fun hmask hcsum => ?_, fun hmask hcsum => ?_⟩
  · have hsync : syncCheck (Frame.unpack w) = false := by rwa [← Bool.not_eq_true, syncCheck_unpack_iff]
    exact ⟨if_pos hmask, decode_of_syncCheck_false hsync, decodeResult_of_sync_fails hsync⟩
  · have hsync := (syncCheck_unpack_iff w).mpr hmask
    refine ⟨?_, decode_of_syncCheck hsync, decodeResult_of_csum_fails hsync hcsum⟩
    exact (if_neg (not_not.mpr hmask)).trans (if_neg hcsum)
  · have hsync := (syncCheck_unpack_iff w).mpr hmask
    refine ⟨?_, decode_of_syncCheck hsync, decodeResult_of_checks_pass hsync hcsum⟩
    exact (if_neg (not_not.mpr hmask)).trans (if_pos hcsum)

end Sys2Proof.Machine

/-! PROOFS. What each operation does to the state, said once: it completes, an internal operation hands on a value, and a
FRAME80 operation shifts a Result in (20_memory.md R36, 40_frame_validator.md R68, 60_exceptions.md R85). -/

namespace Sys2Proof.Machine

/-- Everything an operation can do: it hands a value on, or it shifts a Result into the pipeline. -/
theorem exec_cases (i : Instr) (s : State) :
    (i.format = .internal ∧ ∃ v, exec i s = .next (s.give v)) ∨
    (i.format = .frame80 ∧ ∃ r, exec i s = .next (s.shift (some r))) := by
  cases i with
  | decode f => exact .inr ⟨rfl, _, rfl⟩
  | decodeSyncBad f => exact .inr ⟨rfl, _, rfl⟩
  | syncCheck f => exact .inl ⟨rfl, _, rfl⟩
  | csum8 f => exact .inl ⟨rfl, _, rfl⟩
  | csumCmp f => exact .inl ⟨rfl, _, rfl⟩
  | le16 lo hi => exact .inl ⟨rfl, _, rfl⟩
  | extractPm25 f => exact .inl ⟨rfl, _, rfl⟩
  | extractPm10 f => exact .inl ⟨rfl, _, rfl⟩
  | scale10 raw => exact .inl ⟨rfl, _, rfl⟩

theorem exec_internal {i : Instr} {s t : State} (hi : i.format = .internal) (h : exec i s = .next t) :
    ∃ v, t = s.give v := by
  obtain ⟨-, v, hx⟩ | ⟨hf, -⟩ := exec_cases i s
  · exact ⟨v, Host.Outcome.next.inj (h.symm.trans hx)⟩
  · rw [hi] at hf
    cases hf

theorem exec_frame80 {i : Instr} {s t : State} (hi : i.format = .frame80) (h : exec i s = .next t) :
    ∃ r, t = s.shift (some r) := by
  obtain ⟨hf, -⟩ | ⟨-, r, hx⟩ := exec_cases i s
  · rw [hi] at hf
    cases hf
  · exact ⟨r, Host.Outcome.next.inj (h.symm.trans hx)⟩

theorem exec_completes (i : Instr) (s : State) : ∃ t, exec i s = .next t ∧ t.latency = s.latency := by
  obtain ⟨-, v, hx⟩ | ⟨-, r, hx⟩ := exec_cases i s
  · exact ⟨_, hx, s.give_latency v⟩
  · exact ⟨_, hx, s.shift_latency (some r)⟩

/-- Whatever the port value, the row it selects shifts in DECODE's Result of its frame. -/
theorem exec_decode (w : FrameWord) (s : State) :
    exec (decode w) s = .next (s.shift (some (decodeResult (Frame.unpack w)))) := by
  cases hsync : syncCheck (Frame.unpack w) with
  | true =>
    rw [decode_of_syncCheck hsync]
    rfl
  | false =>
    rw [decode_of_syncCheck_false hsync, decodeResult_of_sync_fails hsync]
    rfl

theorem State.readByte_shift (s : State) (r : Option Result) (a : Nat) : (s.shift r).readByte a = s.readByte a := by
  rw [State.readByte, State.window_shift, State.readByte]

/-! ### The statements -/

/-- Settles O31: both operations shift, and a shift is a queue. -/
theorem frameOperationsCompleteIntoThePipeline : Obligations.FrameOperationsCompleteIntoThePipeline :=
  fun _ s => ⟨⟨_, rfl, s.shift_queue _, rfl, rfl⟩, _, rfl, s.shift_queue _, rfl, rfl⟩

/-- Settles O32: the selected row shifts in DECODE's Result. -/
theorem decodedOperationYieldsDecodeResult : Obligations.DecodedOperationYieldsDecodeResult :=
  fun w s => ⟨_, exec_decode w s, s.shift_queue _⟩

/-- Settles O7: a sync failure selects DECODE.SYNC_BAD, which shifts in lanes 0 and 9. -/
theorem syncFailureIsAResultNotATrap : Obligations.SyncFailureIsAResultNotATrap := by
  refine fun w s hsync => ⟨decode_of_syncCheck_false hsync, _, exec_decode w s, ?_⟩
  rw [decodeResult_of_sync_fails hsync]
  exact s.shift_queue _

/-- Settles O33: handing a value on changes neither the pipeline nor the window. -/
theorem internalOperationsLeaveThePipelineAlone : Obligations.InternalOperationsLeaveThePipelineAlone := by
  intro i s t hi h
  obtain ⟨v, rfl⟩ := exec_internal hi h
  exact ⟨rfl, rfl, rfl, fun _ => rfl⟩

/-- Settles O34: a shift keeps the inputs and the window, and moves every slot by one. -/
theorem frameOperationsOnlyShiftThePipeline : Obligations.FrameOperationsOnlyShiftThePipeline := by
  intro i s t hi h
  obtain ⟨r, rfl⟩ := exec_frame80 hi h
  refine ⟨rfl, s.readByte_shift _, s.shift_latency _, fun j hj => ?_, fun x xs hx => ?_⟩
  · rw [State.shift_slots, List.getElem?_tail, List.getElem?_append_left hj]
  · rw [State.shift_out, hx]
    rfl

/-- Settles O29: the three units' functions, on the bytes of the frame. -/
theorem checkOperationsCompleteWithTheirValue : Obligations.CheckOperationsCompleteWithTheirValue := by
  intro f s sum sync
  have hsync : syncCheck f = sync := by
    rw [Bool.eq_iff_iff, syncCheck_eq_true_iff, decide_eq_true_iff]
  have hcsum : csum8 f = BitVec.ofNat 8 sum := csum8_eq_ofNat f
  have hok : (csumCmp f).1 = decide (sum % 256 = (f.byte 8).toNat) := by
    rw [Bool.eq_iff_iff, csumCmp_fst, decide_eq_true_iff, ← csum8_toNat, ← BitVec.toNat_eq]
    rfl
  refine ⟨?_, ?_, ?_⟩
  · rw [← hsync]
    rfl
  · rw [← hcsum]
    rfl
  · rw [← hok, ← hcsum]
    rfl

theorem State.shift_give (s : State) (v : UnitValue) (r : Option Result) : (s.give v).shift r = s.shift r := rfl

/-- An operation that hands `v` on leaves its state with exactly that value. -/
theorem give_of_exec {i : Instr} {s t : State} {v w : UnitValue} (hi : exec i s = .next (s.give v))
    (h : exec i s = .next t) (hw : t.returned = some w) : v = w ∧ t = s.give v := by
  obtain rfl : s.give v = t := Host.Outcome.next.inj (hi.symm.trans h)
  exact ⟨Option.some.inj hw, rfl⟩

theorem decodeResult_eq_select (f : Frame) : decodeResult f =
    if syncCheck f then
      (if (csumCmp f).1 then .ok (scale10 (extractPm25 f)) (scale10 (extractPm10 f))
        else .checksumMismatch (f.byte 8) (csumCmp f).2)
    else .invalidHeader (f.byte 0) (f.byte 9) := by
  obtain ⟨hs, hr⟩ | ⟨hs, hc, hr⟩ | ⟨hs, hc, hr⟩ := decodeResult_cases f
  · rw [hs, hr]
    rfl
  · rw [if_pos hs, if_neg (by rwa [csumCmp_fst]), hr]
    rfl
  · rw [if_pos hs, if_pos (by rwa [csumCmp_fst]), hr]
    rfl

/-- Settles O35: each operation of the sequence hands on its unit's value, and DECODE reads none of them. -/
theorem decodeIsTheSequenceOfItsInternalOperations : Obligations.DecodeIsTheSequenceOfItsInternalOperations := by
  intro f s s1 s2 s3 s4 s5 s6 sync ok actual raw25 raw10 p q h1 v1 h2 v2 h3 v3 h4 v4 h5 v5 h6 v6
  obtain ⟨hsync, rfl⟩ := give_of_exec rfl h1 v1
  obtain ⟨hcmp, rfl⟩ := give_of_exec rfl h2 v2
  obtain ⟨h25, rfl⟩ := give_of_exec rfl h3 v3
  obtain ⟨hp, rfl⟩ := give_of_exec rfl h4 v4
  obtain ⟨h10, rfl⟩ := give_of_exec rfl h5 v5
  obtain ⟨hq, rfl⟩ := give_of_exec rfl h6 v6
  cases hsync; cases hcmp; cases h25; cases hp; cases h10; cases hq
  refine ⟨rfl, _, rfl, ?_⟩
  rw [← decodeResult_eq_select]
  exact s.shift_queue _

end Sys2Proof.Machine

/-! PROOFS. One clock cycle as a function of the state: `step` always goes on to `State.advance`, and so a run is an
iteration of it (10_state.md R26, 70_reset_and_hazards.md R98). -/

namespace Sys2Proof.Machine

/-! ### The next state of a cycle -/

/-- The state after one clock cycle. -/
def State.advance (s : State) : State :=
  (if s.resetAt 0 then s.flush else s.shift (s.inputAt 0).enters).endCycle

section
variable {s : State} {p : InPorts} {ps : List InPorts}

theorem State.inputAt_zero_of_cons (h : s.inputs = p :: ps) : s.inputAt 0 = p := by
  rw [State.inputAt, h]
  rfl

theorem State.resetAt_zero_of_cons (h : s.inputs = p :: ps) : s.resetAt 0 = (p.rst && s.hasRst) := by
  rw [State.resetAt, State.inputAt_zero_of_cons h]

theorem State.inputAt_zero_of_nil (h : s.inputs = []) : s.inputAt 0 = InPorts.idle 0 := by
  rw [State.inputAt, h]
  rfl

theorem InPorts.enters_of_inValid (h : p.inValid = true) :
    p.enters = some (decodeResult (Frame.unpack p.frameIn)) :=
  if_pos h

theorem InPorts.enters_of_not_inValid (h : p.inValid = false) : p.enters = none := by
  simp [InPorts.enters, h]

theorem State.advance_of_reset (h : s.resetAt 0 = true) : s.advance = s.flush.endCycle := by
  rw [State.advance, if_pos h]

theorem State.advance_of_not_reset (h : s.resetAt 0 = false) :
    s.advance = (s.shift (s.inputAt 0).enters).endCycle := by
  simp [State.advance, h]

end

theorem step_of_frame {s : State} {w : FrameWord} (h : s.sample = .frame w) :
    step s = endCycleOf (exec (decode w) s) := by
  rw [step, h]

/-- Every step goes on, and to the state after one cycle. -/
theorem step_eq_advance (s : State) : step s = .next s.advance := by
  obtain ⟨hs, hi⟩ | ⟨p, ps, hi, ⟨hs, hrst, hhas⟩ | ⟨hs, hr, hv⟩ | ⟨hs, hr, hv⟩⟩ := s.sample_cases
  · have hin := State.inputAt_zero_of_nil hi
    have hreset : s.resetAt 0 = false := by rw [State.resetAt, hin]; rfl
    rw [State.advance_of_not_reset hreset, hin, step, hs]
    rfl
  · rw [State.advance_of_reset (by rw [State.resetAt_zero_of_cons hi, hrst, hhas]; rfl), step, hs]
  · rw [State.advance_of_not_reset ((State.resetAt_zero_of_cons hi).trans hr), State.inputAt_zero_of_cons hi,
      InPorts.enters_of_not_inValid hv, step, hs]
  · rw [State.advance_of_not_reset ((State.resetAt_zero_of_cons hi).trans hr), State.inputAt_zero_of_cons hi,
      InPorts.enters_of_inValid hv, step_of_frame hs, exec_decode, endCycleOf_next]

section
variable (s : State) (n t : Nat)

@[simp] theorem State.advance_inputs : s.advance.inputs = s.inputs.tail := by
  unfold State.advance
  split <;> rfl

@[simp] theorem State.advance_returned : s.advance.returned = none := by
  unfold State.advance
  split <;> rfl

@[simp] theorem State.advance_latency : s.advance.latency = s.latency := by
  unfold State.advance
  split
  · exact s.flush_latency
  · exact s.shift_latency _

@[simp] theorem State.advance_inputAt : s.advance.inputAt t = s.inputAt (t + 1) := by
  simp [State.inputAt]

theorem State.hasRst_congr {s t : State} (h : s.latency = t.latency) : s.hasRst = t.hasRst := by
  rw [Bool.eq_iff_iff, State.hasRst_iff, State.hasRst_iff, h]

@[simp] theorem State.advance_resetAt : s.advance.resetAt t = s.resetAt (t + 1) := by
  rw [State.resetAt, State.advance_inputAt, State.hasRst_congr s.advance_latency, State.resetAt]

/-- Without reset a cycle is a queue: what stood in the slots, followed by what enters, is what leaves, followed by what
stays. -/
theorem State.advance_queue {s : State} (h : s.resetAt 0 = false) :
    s.slots ++ [(s.inputAt 0).enters] = s.advance.out :: s.advance.slots := by
  rw [State.advance_of_not_reset h]
  exact s.shift_queue _

/-! ### Runs -/

theorem State.iterate_inputAt : (State.advance^[n] s).inputAt t = s.inputAt (n + t) := by
  induction n generalizing s with
  | zero => rw [Nat.zero_add]; rfl
  | succ n ih => rw [Function.iterate_succ_apply, ih, State.advance_inputAt, Nat.add_right_comm]

theorem State.iterate_resetAt : (State.advance^[n] s).resetAt t = s.resetAt (n + t) := by
  induction n generalizing s with
  | zero => rw [Nat.zero_add]; rfl
  | succ n ih => rw [Function.iterate_succ_apply, ih, State.advance_resetAt, Nat.add_right_comm]

theorem State.iterate_latency : (State.advance^[n] s).latency = s.latency := by
  induction n generalizing s with
  | zero => rfl
  | succ n ih => rw [Function.iterate_succ_apply, ih, State.advance_latency]

theorem cycles_eq_iterate : cycles n s = .next (State.advance^[n] s) := by
  induction n generalizing s with
  | zero => rfl
  | succ n ih =>
    simp only [cycles, step_eq_advance]
    exact ih s.advance

theorem outputs_succ : outputs (n + 1) s = s.advance.out :: outputs n s.advance := by
  simp only [outputs, step_eq_advance]

theorem outputs_length : (outputs n s).length = n := by
  induction n generalizing s with
  | zero => rfl
  | succ n ih => rw [outputs_succ, List.length_cons, ih]

theorem outputs_getElem? {n k : Nat} (h : k < n) : (outputs n s)[k]? = some (State.advance^[k + 1] s).out := by
  induction n generalizing s k with
  | zero => exact absurd h (Nat.not_lt_zero k)
  | succ n ih =>
    rw [outputs_succ]
    cases k with
    | zero => rfl
    | succ k =>
      rw [List.getElem?_cons_succ, ih s.advance (Nat.lt_of_succ_lt_succ h)]
      rfl

end

/-! ### The statements about one cycle -/

/-- Settles O36: a step in an accepting cycle is `exec` of what the decoder reads from the port. -/
theorem stepRunsTheDecodedInstruction : Obligations.StepRunsTheDecodedInstruction := by
  rintro s p ps _ hi hv hr rfl
  have hreset : (p.rst && s.hasRst) = false := by
    obtain h | h := hr <;> simp [State.hasRst, h]
  have hs : s.sample = .frame p.frameIn := by
    simp [State.sample, hi, hreset, hv]
  rw [step_of_frame hs]
  cases exec (decode p.frameIn) s <;> rfl

/-- Settles O38: nothing enters in a cycle without a frame. -/
theorem idleCycleShiftsInAnEmptySlot : Obligations.IdleCycleShiftsInAnEmptySlot := by
  intro s p ps hi hv hr
  have hreset : s.resetAt 0 = false := by
    obtain h | h := hr <;> simp [State.resetAt_zero_of_cons hi, State.hasRst, h]
  refine ⟨_, step_eq_advance s, ?_, by rw [State.advance_inputs, hi]; rfl, s.advance_returned⟩
  rw [← State.advance_queue hreset, State.inputAt_zero_of_cons hi, InPorts.enters_of_not_inValid hv]

/-- Settles O39: a reset empties every slot. -/
theorem resetCycleEmptiesEverySlot : Obligations.ResetCycleEmptiesEverySlot := by
  intro s p ps hi hrst hlat
  have hreset : s.resetAt 0 = true := by
    rw [State.resetAt_zero_of_cons hi, hrst, s.hasRst_iff.mpr hlat]
    rfl
  rw [step_eq_advance, State.advance_of_reset hreset]
  refine congrArg _ (State.ext_fields ?_ s.flush_empty rfl rfl)
  rw [State.endCycle_inputs, State.flush_inputs, hi]
  rfl

/-- Settles O40: with no slot there is no reset, and what enters leaves in the same cycle. -/
theorem zeroLatencyIsCombinational : Obligations.ZeroLatencyIsCombinational := by
  intro s hlat
  have hslots : s.slots = [] := List.length_eq_zero_iff.mp hlat
  have hreset : s.resetAt 0 = false := by simp [State.resetAt, State.hasRst, hslots]
  have hqueue := State.advance_queue hreset
  rw [hslots, List.nil_append, List.cons.injEq] at hqueue
  exact ⟨_, step_eq_advance s, hqueue.2.symm, s.advance_inputs, hqueue.1.symm⟩

/-- Settles O41: every operation completes, and a run is an iteration. -/
theorem blockNeverTrapsOrRefuses : Obligations.BlockNeverTrapsOrRefuses := by
  refine ⟨fun i s => ?_, fun n s => ⟨_, cycles_eq_iterate s n⟩⟩
  obtain ⟨t, ht, -⟩ := exec_completes i s
  exact ⟨t, ht⟩

/-- Settles O42: an operation keeps the number of slots, and so does every iteration of a cycle. -/
theorem latencyNeverChanges : Obligations.LatencyNeverChanges := by
  refine ⟨fun i s t h => ?_, fun n s t h => ?_⟩
  · obtain ⟨u, hu, hlat⟩ := exec_completes i s
    rwa [← Host.Outcome.next.inj (hu.symm.trans h)]
  · rw [← Host.Outcome.next.inj ((cycles_eq_iterate s n).symm.trans h), State.iterate_latency]

end Sys2Proof.Machine

/-! PROOFS. The invariant: only Results of DECODE are in the machine (40_frame_validator.md R65, 10_state.md R27). -/

namespace Sys2Proof.Machine

theorem InPorts.enters_produced {p : InPorts} {r : Result} (h : p.enters = some r) : r.Produced := by
  cases hv : p.inValid with
  | true => exact ⟨_, Option.some.inj ((InPorts.enters_of_inValid hv).symm.trans h)⟩
  | false => simp [InPorts.enters_of_not_inValid hv] at h

theorem State.inv_of_empty {s : State} (hslots : ∀ x ∈ s.slots, x = none) (hout : s.out = none)
    (hreturned : s.returned = none) : s.Inv where
  slots _ hr := nomatch hslots _ hr
  out _ hr := nomatch hout.symm.trans hr
  returned := hreturned

theorem State.resetWith_inv (n : Nat) : (State.resetWith n).Inv :=
  State.inv_of_empty (fun _ hx => List.eq_of_mem_replicate hx) rfl rfl

theorem State.advance_inv {s : State} (h : s.Inv) : s.advance.Inv := by
  cases hreset : s.resetAt 0 with
  | true =>
    rw [State.advance_of_reset hreset]
    exact State.inv_of_empty (fun x hx => List.eq_of_mem_replicate (s.flush_empty ▸ hx)) rfl rfl
  | false =>
    rw [State.advance_of_not_reset hreset]
    have hproduced (r : Result) (hr : some r ∈ s.slots ∨ (s.inputAt 0).enters = some r) : r.Produced :=
      hr.elim (h.slots r) InPorts.enters_produced
    exact ⟨fun r hr => hproduced r (State.shift_source (.inl hr)),
      fun r hr => hproduced r (State.shift_source (.inr hr)), rfl⟩

/-- Settles O43: a cycle either empties the machine or moves its Results and adds one of DECODE. -/
theorem stepKeepsOnlyDecodeResultsInThePipeline : Obligations.StepKeepsOnlyDecodeResultsInThePipeline := by
  intro s t hinv h
  obtain rfl : s.advance = t := Host.Outcome.next.inj ((step_eq_advance s).symm.trans h)
  exact State.advance_inv hinv

/-- Settles O44: after reset the machine holds no Result. -/
theorem resetHoldsOnlyDecodeResults : Obligations.ResetHoldsOnlyDecodeResults :=
  ⟨State.resetWith_inv, State.resetWith_inv Config.latency⟩

/-- Settles O46: the fields of the reset state. -/
theorem resetLeavesEmptySlotsAndNoResult : Obligations.ResetLeavesEmptySlotsAndNoResult :=
  ⟨rfl, List.length_replicate, rfl, rfl, rfl⟩

end Sys2Proof.Machine

/-! PROOFS. Runs of cycles: order, timing, the drop at a reset, and independence of what stood in the machine before
(20_memory.md section D1, 70_reset_and_hazards.md R98). -/

namespace Sys2Proof.Machine

/-! ### Order and timing -/

/-- Over cycles without reset the pipeline is a queue of `n` entries and `n` exits. -/
theorem outputs_append_slots (n : Nat) (s : State) (h : ∀ r, r < n → s.resetAt r = false) :
    outputs n s ++ (State.advance^[n] s).slots
      = s.slots ++ (List.range n).map fun t => (s.inputAt t).enters := by
  induction n generalizing s with
  | zero => simp [outputs]
  | succ n ih =>
    have hrest := ih s.advance fun r hr => (s.advance_resetAt r).trans (h (r + 1) (Nat.succ_lt_succ hr))
    simp only [State.advance_inputAt] at hrest
    calc outputs (n + 1) s ++ (State.advance^[n + 1] s).slots
        = s.advance.out :: (outputs n s.advance ++ (State.advance^[n] s.advance).slots) := by rw [outputs_succ]; rfl
      _ = (s.slots ++ [(s.inputAt 0).enters]) ++ (List.range n).map fun t => (s.inputAt (t + 1)).enters := by
        rw [hrest, State.advance_queue (h 0 n.succ_pos), List.cons_append]
      _ = s.slots ++ (List.range (n + 1)).map fun t => (s.inputAt t).enters := by
        simp [List.range_succ_eq_map]

/-- Settles O49: the queue law over `n` cycles. -/
theorem resultsLeaveInOrderNoneLostOrAdded : Obligations.ResultsLeaveInOrderNoneLostOrAdded :=
  fun n s h => ⟨_, cycles_eq_iterate s n, outputs_append_slots n s h⟩

/-- What enters in this cycle is behind `LATENCY` slots, so it leaves `LATENCY` cycles later. -/
theorem State.out_after_latency (s : State) (h : ∀ r, r ≤ s.latency → s.resetAt r = false) :
    (State.advance^[s.latency + 1] s).out = (s.inputAt 0).enters := by
  have hqueue := outputs_append_slots (s.latency + 1) s fun r hr => h r (Nat.le_of_lt_succ hr)
  have hlen : s.latency < (outputs (s.latency + 1) s).length := by
    rw [outputs_length]
    exact s.latency.lt_succ_self
  have hat := congrArg (·[s.latency]?) hqueue
  simp only [List.getElem?_append_left hlen, outputs_getElem? s s.latency.lt_succ_self] at hat
  rw [List.getElem?_append_right (show s.slots.length ≤ s.latency from Nat.le_refl _)] at hat
  simpa [State.latency] using hat

/-- Settles O47: the run to cycle `t`, then the passage through the slots. -/
theorem resultIsPresentedLatencyCyclesLater : Obligations.ResultIsPresentedLatencyCyclesLater := by
  intro s t h
  refine ⟨_, cycles_eq_iterate s _, ?_⟩
  have hout := State.out_after_latency (State.advance^[t] s) fun r hr => by
    rw [State.iterate_latency] at hr
    rw [State.iterate_resetAt]
    exact h (t + r) (Nat.le_add_right t r) (Nat.add_le_add_left hr t)
  rwa [State.iterate_latency, State.iterate_inputAt, ← Function.iterate_add_apply, Nat.add_comm, ← Nat.add_assoc] at hout

/-! ### The drop at a reset -/

/-- Nothing is presented, and the next `m` slots to leave are empty. -/
def State.Drained (m : Nat) (s : State) : Prop := s.out = none ∧ List.replicate m none <+: s.slots

theorem State.drained_of_reset {s : State} (h : s.resetAt 0 = true) : s.advance.Drained s.latency := by
  rw [State.advance_of_reset h]
  exact ⟨rfl, s.flush_empty ▸ List.prefix_rfl⟩

/-- A cycle uses up one of the empty slots, and a reset empties more. -/
theorem State.Drained.advance {m : Nat} {s : State} (h : s.Drained (m + 1)) : s.advance.Drained m := by
  obtain ⟨-, rest, hrest⟩ := h
  have hm : m ≤ s.latency := by
    simp only [State.latency, ← hrest, List.length_append, List.length_replicate]
    omega
  cases hreset : s.resetAt 0 with
  | true =>
    obtain ⟨hout, hempty⟩ := State.drained_of_reset hreset
    obtain ⟨k, hk⟩ := Nat.exists_eq_add_of_le hm
    rw [hk, ← List.replicate_append_replicate] at hempty
    exact ⟨hout, (List.prefix_append _ _).trans hempty⟩
  | false =>
    have hqueue := State.advance_queue hreset
    rw [← hrest, List.replicate_succ, List.cons_append, List.cons_append, List.cons.injEq] at hqueue
    obtain ⟨hout, hslots⟩ := hqueue
    exact ⟨hout.symm, _, by rw [← hslots, List.append_assoc]⟩

theorem State.Drained.iterate {m : Nat} (n : Nat) {s : State} (h : s.Drained (m + n)) :
    (State.advance^[n] s).Drained m := by
  induction n generalizing s with
  | zero => exact h
  | succ n ih => exact ih h.advance

/-- Settles O48: a reset empties `LATENCY` slots, more than are presented up to cycle `t + LATENCY`. -/
theorem resetDropsTheFramesInFlight : Obligations.ResetDropsTheFramesInFlight := by
  intro s t r htr hrt hreset
  refine ⟨_, cycles_eq_iterate s _, ?_⟩
  obtain ⟨d, hd⟩ := Nat.exists_eq_add_of_le hrt
  have hdrained : (State.advance^[r + 1] s).Drained s.latency := by
    rw [Function.iterate_succ_apply', ← State.iterate_latency s r]
    exact State.drained_of_reset (by rwa [State.iterate_resetAt])
  obtain ⟨m, hm⟩ := Nat.exists_eq_add_of_le' (show d ≤ s.latency by omega)
  have hout := (State.Drained.iterate d (hm ▸ hdrained)).1
  rwa [← Function.iterate_add_apply, show d + (r + 1) = t + s.latency + 1 by omega] at hout

/-! ### Independence of earlier contents -/

/-- Two machines that take the same inputs, of which only the next `m` slots to leave may differ. -/
structure State.AgreePast (m : Nat) (s1 s2 : State) : Prop where
  inputs  : s1.inputs = s2.inputs
  latency : s1.latency = s2.latency
  slots   : s1.slots.drop m = s2.slots.drop m

namespace State.AgreePast

variable {m : Nat} {s1 s2 : State}

theorem resetAt_eq (h : AgreePast m s1 s2) (t : Nat) : s1.resetAt t = s2.resetAt t := by
  rw [State.resetAt, State.resetAt, State.inputAt, State.inputAt, h.inputs, State.hasRst_congr h.latency]

theorem inputAt_eq (h : AgreePast m s1 s2) (t : Nat) : s1.inputAt t = s2.inputAt t := by
  rw [State.inputAt, State.inputAt, h.inputs]

/-- After a cycle the two queues of presented Result and slots agree past `m`. -/
theorem advance_queue (h : AgreePast m s1 s2) :
    (s1.advance.out :: s1.advance.slots).drop m = (s2.advance.out :: s2.advance.slots).drop m := by
  cases hreset : s1.resetAt 0 with
  | true =>
    rw [State.advance_of_reset hreset, State.advance_of_reset ((h.resetAt_eq 0).symm.trans hreset)]
    simp only [State.endCycle_out, State.endCycle_slots, State.flush_out, State.flush_empty, h.latency]
  | false =>
    rw [← State.advance_queue hreset, ← State.advance_queue ((h.resetAt_eq 0).symm.trans hreset), List.drop_append,
      List.drop_append, h.slots, h.inputAt_eq, show s1.slots.length = s2.slots.length from h.latency]

theorem advance (h : AgreePast m s1 s2) : AgreePast (m - 1) s1.advance s2.advance where
  inputs := by rw [State.advance_inputs, State.advance_inputs, h.inputs]
  latency := by rw [State.advance_latency, State.advance_latency, h.latency]
  slots := by
    cases m with
    | zero => exact (List.cons.inj h.advance_queue).2
    | succ m => exact h.advance_queue

theorem iterate (n : Nat) (h : AgreePast m s1 s2) :
    AgreePast (m - n) (State.advance^[n] s1) (State.advance^[n] s2) := by
  induction n with
  | zero => exact h
  | succ n ih =>
    rw [Function.iterate_succ_apply', Function.iterate_succ_apply']
    exact ih.advance

theorem advance_out_eq (h : AgreePast 0 s1 s2) : s1.advance.out = s2.advance.out :=
  (List.cons.inj h.advance_queue).1

end State.AgreePast

/-- Settles O50: each cycle makes one more slot agree, so after `LATENCY` cycles all do, and then the outputs too. -/
theorem earlierTransactionsLeaveNoTrace : Obligations.EarlierTransactionsLeaveNoTrace := by
  intro s1 s2 n hinputs hlat hn
  have hstart : State.AgreePast s1.latency s1 s2 := by
    refine ⟨hinputs, hlat, ?_⟩
    exact (List.drop_of_length_le (Nat.le_refl _)).trans (List.drop_of_length_le (Nat.le_of_eq hlat.symm)).symm
  have hpast (k : Nat) (hk : s1.latency ≤ k) :
      State.AgreePast 0 (State.advance^[k] s1) (State.advance^[k] s2) := by
    simpa [Nat.sub_eq_zero_of_le hk] using hstart.iterate k
  refine ⟨_, _, cycles_eq_iterate s1 n, cycles_eq_iterate s2 n, (hpast n hn).slots, (hpast n hn).inputs, fun hlt => ?_⟩
  obtain ⟨k, rfl⟩ := Nat.exists_eq_succ_of_ne_zero (Nat.ne_zero_of_lt hlt)
  rw [Function.iterate_succ_apply', Function.iterate_succ_apply']
  exact (hpast k (Nat.le_of_lt_succ hlt)).advance_out_eq

end Sys2Proof.Machine

/-! PROOFS. Binary32 patterns of normal values and the rounding that gives them (R57, R77, log 11). -/

namespace Sys2Proof.Machine

/-! ### Patterns of normal values -/

/-- The pattern of `m * 2^e` units for a significand `m` with its hidden bit, which adds one to the exponent field. -/
def f32Normal (e m : Nat) : F32 := BitVec.ofNat 32 (e * 2 ^ 23 + m)

section
variable {e m : Nat} (he : e ≤ 253) (hlo : 2 ^ 23 ≤ m) (hhi : m < 2 ^ 24)

include he hhi in
theorem f32Normal_toNat : (f32Normal e m).toNat = e * 2 ^ 23 + m := by
  rw [f32Normal, BitVec.toNat_ofNat]
  omega

include he hhi in
theorem f32Normal_isFinite : f32IsFinite (f32Normal e m) = true := by
  rw [f32IsFinite, f32Normal_toNat he hhi, decide_eq_true_iff]
  omega

include he hlo hhi in
theorem f32Normal_exponent : (f32Normal e m).toNat / 2 ^ 23 = e + 1 := by
  rw [f32Normal_toNat he hhi]
  omega

include he hlo hhi in
theorem f32Units_f32Normal : f32Units (f32Normal e m) = m * 2 ^ e := by
  have hfraction : 2 ^ 23 + (f32Normal e m).toNat % 2 ^ 23 = m := by
    rw [f32Normal_toNat he hhi]
    omega
  rw [f32Units, f32Normal_exponent he hlo hhi, if_neg e.succ_ne_zero, hfraction, Nat.add_sub_cancel]

end

/-- A pattern's value is a multiple of the spacing `2^t`, or lies below the values of that spacing. -/
theorem f32Units_cases (b : F32) (t : Nat) : (∃ j, f32Units b = j * 2 ^ t) ∨ f32Units b ≤ 2 ^ 23 * 2 ^ t := by
  have hfraction : b.toNat % 2 ^ 23 < 2 ^ 23 := Nat.mod_lt _ (Nat.two_pow_pos 23)
  rw [f32Units]
  split
  · exact .inr (hfraction.le.trans (Nat.le_mul_of_pos_right _ (Nat.two_pow_pos t)))
  · obtain hlt | hle := Nat.lt_or_ge (b.toNat / 2 ^ 23 - 1) t
    · refine .inr ?_
      calc (2 ^ 23 + b.toNat % 2 ^ 23) * 2 ^ (b.toNat / 2 ^ 23 - 1)
          ≤ 2 ^ 24 * 2 ^ (t - 1) :=
            Nat.mul_le_mul (by omega) (Nat.pow_le_pow_right Nat.two_pos (Nat.le_sub_one_of_lt hlt))
        _ = 2 ^ 23 * 2 ^ t := by rw [← Nat.pow_add, ← Nat.pow_add]; congr 1; omega
    · refine .inl ⟨(2 ^ 23 + b.toNat % 2 ^ 23) * 2 ^ (b.toNat / 2 ^ 23 - 1 - t), ?_⟩
      rw [Nat.mul_assoc, ← Nat.pow_add, Nat.sub_add_cancel hle]

/-! ### Rounding -/

theorem roundHalfEven_mul_right (a b : Nat) {c : Nat} (hc : 0 < c) :
    roundHalfEven (a * c) (b * c) = roundHalfEven a b := by
  simp only [roundHalfEven, Nat.mul_mod_mul_right, Nat.mul_div_mul_right _ _ hc, ← Nat.mul_assoc,
    Nat.mul_lt_mul_right hc]

theorem roundHalfEven_exact (q : Nat) {d : Nat} (hd : 0 < d) : roundHalfEven (q * d) d = q := by
  rw [roundHalfEven, Nat.mul_mod_left, if_pos hd, Nat.mul_div_cancel q hd]

/-- Without a tie, rounding a tenth is adding 5 before the division. -/
theorem roundHalfEven_ten {n : Nat} (h : n % 10 ≠ 5) : roundHalfEven n 10 = (n + 5) / 10 := by
  unfold roundHalfEven
  split
  · omega
  · split <;> omega

/-- A quotient between `2^(e+23)` and `2^(e+24)` units has the spacing `2^e`. -/
theorem f32Round_eq_f32Normal {num den e m : Nat} (hden : 0 < den) (hlo : 2 ^ (e + 23) * den ≤ num * f32One)
    (hhi : num * f32One < 2 ^ (e + 24) * den) (hround : roundHalfEven (num * f32One) (den * 2 ^ e) = m)
    (he : e ≤ 253) (hm : m < 2 ^ 24) : f32Round num den = f32Normal e m := by
  have hle : 2 ^ (e + 23) ≤ num * f32One / den := (Nat.le_div_iff_mul_le hden).mpr hlo
  have hlt : num * f32One / den < 2 ^ (e + 24) := (Nat.div_lt_iff_lt_mul hden).mpr hhi
  have hlog : Nat.log2 (num * f32One / den) = e + 23 :=
    (Nat.log2_eq_iff (Nat.ne_zero_of_lt (Nat.lt_of_lt_of_le (Nat.two_pow_pos _) hle))).mpr ⟨hle, hlt⟩
  rw [f32Round, hlog, Nat.add_sub_cancel, hround, f32Normal, Nat.min_eq_right (by omega)]

theorem f32Round_zero (den : Nat) (hden : 0 < den) : f32Round 0 den = 0 := by
  have hlog : Nat.log2 (0 * f32One / den) - 23 = 0 := by rw [Nat.zero_mul, Nat.zero_div]; rfl
  have hround : roundHalfEven (0 * f32One) (den * 2 ^ 0) = 0 := by simp [roundHalfEven, hden]
  rw [f32Round, hlog, hround]
  rfl

/-! ### Natural numbers in binary32 -/

section
variable {n : Nat} (hn : n ≠ 0) (hsize : n < 2 ^ 24)

include hn hsize

theorem log2_le_23 : n.log2 ≤ 23 :=
  Nat.le_of_lt_succ ((Nat.log2_lt hn).mpr hsize)

theorem mul_f32One_eq : n * f32One = n * 2 ^ (23 - n.log2) * 2 ^ (n.log2 + 126) := by
  have hlog := log2_le_23 hn hsize
  rw [Nat.mul_assoc, ← Nat.pow_add, f32One]
  congr 2
  omega

theorem significand_bounds : 2 ^ 23 ≤ n * 2 ^ (23 - n.log2) ∧ n * 2 ^ (23 - n.log2) < 2 ^ 24 := by
  have hlog := log2_le_23 hn hsize
  have hsplit : 2 ^ 23 = 2 ^ n.log2 * 2 ^ (23 - n.log2) := by rw [← Nat.pow_add, Nat.add_sub_cancel' hlog]
  constructor
  · rw [hsplit]
    exact Nat.mul_le_mul_right _ (Nat.log2_self_le hn)
  · rw [Nat.pow_succ, hsplit, Nat.mul_right_comm, ← Nat.pow_succ]
    exact Nat.mul_lt_mul_of_pos_right Nat.lt_log2_self (Nat.two_pow_pos _)

/-- A natural number of at most 24 bits needs no rounding. -/
theorem f32OfNat_eq_f32Normal : f32OfNat n = f32Normal (n.log2 + 126) (n * 2 ^ (23 - n.log2)) := by
  have hlog := log2_le_23 hn hsize
  obtain ⟨hlo, hhi⟩ := significand_bounds hn hsize
  have hpos : 0 < 2 ^ (n.log2 + 126) := Nat.two_pow_pos _
  have hbound (j : Nat) : 2 ^ (n.log2 + 126 + j) * 1 = 2 ^ j * 2 ^ (n.log2 + 126) := by
    rw [Nat.mul_one, Nat.pow_add, Nat.mul_comm]
  refine f32Round_eq_f32Normal Nat.one_pos ?_ ?_ ?_ (by omega) hhi
  · rw [mul_f32One_eq hn hsize, hbound]
    exact Nat.mul_le_mul_right _ hlo
  · rw [mul_f32One_eq hn hsize, hbound]
    exact (Nat.mul_lt_mul_right hpos).mpr hhi
  · rw [Nat.one_mul, mul_f32One_eq hn hsize, roundHalfEven_exact _ hpos]

end

theorem f32OfNat_zero : f32OfNat 0 = 0 := f32Round_zero 1 Nat.one_pos

theorem f32Units_f32OfNat {n : Nat} (hsize : n < 2 ^ 24) : f32Units (f32OfNat n) = n * f32One := by
  by_cases hn : n = 0
  · rw [hn, f32OfNat_zero, Nat.zero_mul]
    rfl
  · have hlog := log2_le_23 hn hsize
    obtain ⟨hlo, hhi⟩ := significand_bounds hn hsize
    rw [f32OfNat_eq_f32Normal hn hsize, f32Units_f32Normal (by omega) hlo hhi, mul_f32One_eq hn hsize]

theorem f32IsFinite_f32OfNat {n : Nat} (hsize : n < 2 ^ 24) : f32IsFinite (f32OfNat n) = true := by
  by_cases hn : n = 0
  · rw [hn, f32OfNat_zero]
    rfl
  · have hlog := log2_le_23 hn hsize
    rw [f32OfNat_eq_f32Normal hn hsize]
    exact f32Normal_isFinite (by omega) (significand_bounds hn hsize).2

theorem f32OfNat_ten : f32OfNat 10 = Config.scale := by decide

/-- The quotient of two natural numbers of at most 24 bits is one rounding of their exact values. -/
theorem f32Div_f32OfNat {a b : Nat} (ha : a < 2 ^ 24) (hb : b < 2 ^ 24) (hb0 : b ≠ 0) :
    f32Div (f32OfNat a) (f32OfNat b) = some (f32Round (a * f32One) (b * f32One)) := by
  have hdivisor : b * f32One ≠ 0 := Nat.mul_ne_zero hb0 (Nat.two_pow_pos 149).ne'
  rw [f32Div, f32IsFinite_f32OfNat ha, f32IsFinite_f32OfNat hb, f32Units_f32OfNat ha, f32Units_f32OfNat hb]
  exact if_pos (by simpa using hdivisor)

end Sys2Proof.Machine

/-! PROOFS. SCALE10's integer algorithm (42_fixed_point_scalar.md R78) and the quotient it computes (R77). -/

namespace Sys2Proof.Machine

/-! ### The algorithm -/

theorem scaleExponent_eq_iff {n k : Nat} (hn : n ≠ 0) :
    scaleExponent n = k ↔ 10 * 2 ^ k ≤ 16 * n ∧ 16 * n < 10 * 2 ^ (k + 1) := by
  have hquot : 16 * n / 10 ≠ 0 := by omega
  rw [scaleExponent, Nat.log2_eq_iff hquot, Nat.le_div_iff_mul_le (by decide), Nat.div_lt_iff_lt_mul (by decide),
    Nat.mul_comm (2 ^ k), Nat.mul_comm (2 ^ (k + 1))]

section
variable {n : Nat} (hn : n ≠ 0) (hsize : n < 2 ^ 16)

include hn hsize

theorem scaleExponent_le : scaleExponent n ≤ 16 := by
  obtain ⟨hle, -⟩ := (scaleExponent_eq_iff hn).mp rfl
  by_contra hgt
  have hpow : 2 ^ 17 ≤ 2 ^ scaleExponent n := Nat.pow_le_pow_right Nat.two_pos (Nat.lt_of_not_le hgt)
  omega

/-- `raw` in units of `2^(-149)` is R78's `N` in the spacing of the result. -/
theorem mul_f32One_eq_scaleNumerator : n * f32One = scaleNumerator n * 2 ^ (scaleExponent n + 122) := by
  have hk := scaleExponent_le hn hsize
  rw [scaleNumerator, Nat.mul_assoc, ← Nat.pow_add, f32One]
  congr 2
  omega

theorem scaleNumerator_bounds : 10 * 2 ^ 23 ≤ scaleNumerator n ∧ scaleNumerator n < 10 * 2 ^ 24 := by
  have hk := scaleExponent_le hn hsize
  obtain ⟨hlo, hhi⟩ := (scaleExponent_eq_iff hn).mp rfl
  have hpos : 0 < 2 ^ scaleExponent n := Nat.two_pow_pos _
  have hshift : scaleNumerator n * 2 ^ scaleExponent n = n * 2 ^ 27 := by
    rw [scaleNumerator, Nat.mul_assoc, ← Nat.pow_add, Nat.sub_add_cancel (by omega)]
  rw [Nat.pow_succ] at hhi
  constructor
  · refine Nat.le_of_mul_le_mul_right ?_ hpos
    omega
  · refine Nat.lt_of_mul_lt_mul_right (a := 2 ^ scaleExponent n) ?_
    omega

theorem scaleNumerator_dvd : 2 ^ 11 ∣ scaleNumerator n := by
  have hk := scaleExponent_le hn hsize
  exact (Nat.pow_dvd_pow 2 (by omega)).mul_left n

/-- `N` is even, so no quotient is a tie. -/
theorem scaleNumerator_mod_ten_ne_five : scaleNumerator n % 10 ≠ 5 := by
  have hdvd := scaleNumerator_dvd hn hsize
  omega

/-- The significand needs no renormalising: `N` stops `2^11` short of the bound at which `m` would be `2^24`. -/
theorem scaleSignificand_bounds : 2 ^ 23 ≤ scaleSignificand n ∧ scaleSignificand n < 2 ^ 24 := by
  obtain ⟨hlo, hhi⟩ := scaleNumerator_bounds hn hsize
  have hdvd := scaleNumerator_dvd hn hsize
  rw [scaleSignificand]
  omega

end

/-! ### SCALE10 as a normal pattern -/

theorem scale10_zero : scale10 0 = 0 := by decide

theorem toNat_ne_zero_of_ne_zero {raw : Half} (h : raw ≠ 0) : raw.toNat ≠ 0 :=
  BitVec.toNat_ne.mp h

section
variable {raw : Half} (h : raw ≠ 0)

include h

theorem scale10_eq_f32Normal :
    scale10 raw = f32Normal (scaleExponent raw.toNat + 122) (scaleSignificand raw.toNat) := by
  have hn := toNat_ne_zero_of_ne_zero h
  obtain ⟨hlo, hhi⟩ := scaleSignificand_bounds hn raw.isLt
  rw [scale10, if_neg hn, if_neg hhi.ne, f32Normal]
  refine congrArg (BitVec.ofNat 32) ?_
  omega

theorem scale10_toNat :
    (scale10 raw).toNat = (scaleExponent raw.toNat + 122) * 2 ^ 23 + scaleSignificand raw.toNat := by
  have hn := toNat_ne_zero_of_ne_zero h
  have hk := scaleExponent_le hn raw.isLt
  rw [scale10_eq_f32Normal h, f32Normal_toNat (by omega) (scaleSignificand_bounds hn raw.isLt).2]

theorem scale10_exponent : (scale10 raw).toNat / 2 ^ 23 = scaleExponent raw.toNat + 123 := by
  obtain ⟨hlo, hhi⟩ := scaleSignificand_bounds (toNat_ne_zero_of_ne_zero h) raw.isLt
  rw [scale10_toNat h]
  omega

theorem f32Units_scale10 :
    f32Units (scale10 raw) = scaleSignificand raw.toNat * 2 ^ (scaleExponent raw.toNat + 122) := by
  have hn := toNat_ne_zero_of_ne_zero h
  have hk := scaleExponent_le hn raw.isLt
  obtain ⟨hlo, hhi⟩ := scaleSignificand_bounds hn raw.isLt
  rw [scale10_eq_f32Normal h, f32Units_f32Normal (by omega) hlo hhi]

/-- The correctly rounded quotient by ten has SCALE10's exponent and significand. -/
theorem f32Round_tenth : f32Round (raw.toNat * f32One) (10 * f32One) = scale10 raw := by
  have hn := toNat_ne_zero_of_ne_zero h
  have hk := scaleExponent_le hn raw.isLt
  obtain ⟨hlo, hhi⟩ := scaleNumerator_bounds hn raw.isLt
  have hnum : raw.toNat * f32One * f32One
      = scaleNumerator raw.toNat * (f32One * 2 ^ (scaleExponent raw.toNat + 122)) := by
    rw [mul_f32One_eq_scaleNumerator hn raw.isLt, Nat.mul_assoc, Nat.mul_comm f32One]
  have hbound (j : Nat) : 2 ^ (scaleExponent raw.toNat + 122 + j) * (10 * f32One)
      = 10 * 2 ^ j * (f32One * 2 ^ (scaleExponent raw.toNat + 122)) := by
    rw [Nat.pow_add]
    ring
  have hone : 0 < f32One := Nat.two_pow_pos 149
  have hpos : 0 < f32One * 2 ^ (scaleExponent raw.toNat + 122) := Nat.mul_pos hone (Nat.two_pow_pos _)
  rw [scale10_eq_f32Normal h]
  refine f32Round_eq_f32Normal (Nat.mul_pos (by decide) hone) ?_ ?_ ?_ (by omega)
    (scaleSignificand_bounds hn raw.isLt).2
  · rw [hnum, hbound]
    exact Nat.mul_le_mul_right _ hlo
  · rw [hnum, hbound]
    exact (Nat.mul_lt_mul_right hpos).mpr hhi
  · rw [hnum, Nat.mul_assoc, roundHalfEven_mul_right _ _ hpos,
      roundHalfEven_ten (scaleNumerator_mod_ten_ne_five hn raw.isLt), scaleSignificand]

end

theorem scale10_toNat_le (raw : Half) : (scale10 raw).toNat ≤ 0x45CCCC00 := by
  by_cases h : raw = 0
  · rw [h, scale10_zero]
    decide
  · have hn := toNat_ne_zero_of_ne_zero h
    have hsize := raw.isLt
    have hk := scaleExponent_le hn hsize
    obtain ⟨-, hhi⟩ := scaleSignificand_bounds hn hsize
    rw [scale10_toNat h]
    obtain hlt | heq := Nat.lt_or_eq_of_le hk
    · omega
    · rw [heq, scaleSignificand, scaleNumerator, heq]
      omega

theorem scale10_toNat_ge {raw : Half} (h : raw ≠ 0) : 0x3DCCCCCD ≤ (scale10 raw).toNat := by
  have hn := toNat_ne_zero_of_ne_zero h
  obtain ⟨hlo, -⟩ := scaleSignificand_bounds hn raw.isLt
  rw [scale10_toNat h]
  obtain hzero | hpos := Nat.eq_zero_or_pos (scaleExponent raw.toNat)
  · rw [hzero, scaleSignificand, scaleNumerator, hzero]
    omega
  · omega

theorem scale10_msb (raw : Half) : (scale10 raw).msb = false := by
  have hle := scale10_toNat_le raw
  rw [BitVec.msb_eq_false_iff_two_mul_lt]
  omega

theorem f32Div_scale (raw : Half) : f32Div (f32OfNat raw.toNat) Config.scale = some (scale10 raw) := by
  have hsize := raw.isLt
  rw [← f32OfNat_ten, f32Div_f32OfNat (by omega) (by decide) (by decide)]
  by_cases h : raw = 0
  · have hpos : 0 < 10 * f32One := Nat.mul_pos (by decide) (Nat.two_pow_pos 149)
    rw [h, scale10_zero, show (0 : Half).toNat = 0 from rfl, Nat.zero_mul, f32Round_zero _ hpos]
  · rw [f32Round_tenth h]

/-! ### The statements -/

/-- Settles O17: the exponent is unique, so each `k` in range is the one SCALE10 uses. -/
theorem scalingFollowsTheIntegerAlgorithm : Obligations.ScalingFollowsTheIntegerAlgorithm := by
  refine ⟨scale10_zero, fun raw h => ?_⟩
  have hn := toNat_ne_zero_of_ne_zero h
  refine ⟨⟨_, (scaleExponent_eq_iff hn).mp rfl⟩, fun k hlo hhi => ?_⟩
  obtain rfl : scaleExponent raw.toNat = k := (scaleExponent_eq_iff hn).mpr ⟨hlo, hhi⟩
  obtain ⟨hmlo, hmhi⟩ := scaleSignificand_bounds hn raw.isLt
  have hbits : (scale10 raw).toNat
      = (scaleExponent raw.toNat + 123) * 2 ^ 23 + (scaleSignificand raw.toNat - 2 ^ 23) := by
    rw [scale10_toNat h]
    omega
  exact ⟨scaleExponent_le hn raw.isLt, scaleNumerator_mod_ten_ne_five hn raw.isLt, hmlo, hmhi, hbits⟩

/-- Settles O18: raw values are exact in binary32, so the quotient is rounded once, to SCALE10. -/
theorem scalingIsBinary32DivisionByTen : Obligations.ScalingIsBinary32DivisionByTen := by
  refine ⟨f32OfNat_ten, fun raw => ⟨f32Units_f32OfNat ?_, f32Div_scale raw⟩⟩
  have hsize := raw.isLt
  omega

/-- Settles O19: the exponent is least at raw 1 and greatest from raw 40960 on. -/
theorem scaledValuesAreNormalUpTo6553Point5 : Obligations.ScaledValuesAreNormalUpTo6553Point5 := by
  refine ⟨scale10_zero, by decide, by decide, fun raw => ⟨scale10_msb raw, scale10_toNat_le raw⟩, fun raw h => ?_⟩
  have hk := scaleExponent_le (toNat_ne_zero_of_ne_zero h) raw.isLt
  refine ⟨scale10_toNat_ge h, ?_⟩
  rw [scale10_exponent h]
  omega

/-- Settles O30: the values are those of LE16 on the two fields, and SCALE10's is the quotient by ten. -/
theorem scalarOperationsCompleteWithTheirValue : Obligations.ScalarOperationsCompleteWithTheirValue := by
  refine ⟨fun lo hi s => ?_, fun f s => ?_, fun f s => ?_, fun raw s => ⟨_, f32Div_scale raw, rfl⟩⟩
  all_goals
    rw [← le16_eq_ofNat]
    rfl

end Sys2Proof.Machine

/-! PROOFS. How near SCALE10 is to the tenth of its raw value, and what follows: exactness, monotonicity and recovery
(42_fixed_point_scalar.md R80, R81). -/

namespace Sys2Proof.Machine

/-- The distance of ten times the value of `b` from `n`, in units of `2^(-149)`. -/
def tenfoldError (b : F32) (n : Nat) : Nat := ((10 * f32Units b : Int) - n * f32One).natAbs

/-- Of a value and a number that are multiples of one spacing. -/
theorem tenfoldError_of_multiple {b : F32} {n j N S : Nat} (hb : f32Units b = j * S) (hn : n * f32One = N * S) :
    tenfoldError b n = ((10 * j : Int) - N).natAbs * S := by
  have hn' : (n : Int) * f32One = N * S := by exact_mod_cast hn
  have hfactor : (10 * (j * S : Nat) : Int) - N * S = (10 * j - N) * S := by
    push_cast
    ring
  rw [tenfoldError, hb, hn', hfactor, Int.natAbs_mul, Int.natAbs_natCast]

/-- A value below `j * S` is farther away than `j * S` when ten times that is not above the number. -/
theorem le_tenfoldError_of_le {b : F32} {n j N S : Nat} (hb : f32Units b ≤ j * S) (hn : n * f32One = N * S)
    (hj : 10 * j ≤ N) : ((10 * j : Int) - N).natAbs * S ≤ tenfoldError b n := by
  obtain ⟨c, rfl⟩ := Nat.exists_eq_add_of_le hj
  have habs : ((10 * j : Int) - (10 * j + c : Nat)).natAbs = c := by omega
  have hn' : (n : Int) * f32One = 10 * (j * S : Nat) + (c * S : Nat) := by
    rw [show (n : Int) * f32One = (n * f32One : Nat) by push_cast; rfl, hn]
    push_cast
    ring
  rw [habs, tenfoldError, hn']
  omega

/-- R78's rounding: ten times `m` is within 4 of `N`, and no other integer is nearer. -/
theorem scaleSignificand_nearest {n : Nat} (hn : n ≠ 0) (hsize : n < 2 ^ 16) :
    ((10 * scaleSignificand n : Int) - scaleNumerator n).natAbs ≤ 4 ∧
    ∀ j : Nat, ((10 * scaleSignificand n : Int) - scaleNumerator n).natAbs
      ≤ ((10 * j : Int) - scaleNumerator n).natAbs := by
  have htie := scaleNumerator_mod_ten_ne_five hn hsize
  rw [scaleSignificand]
  refine ⟨by omega, fun j => by omega⟩

section
variable {raw : Half} (h : raw ≠ 0)

include h

theorem tenfoldError_scale10 : tenfoldError (scale10 raw) raw.toNat
    = ((10 * scaleSignificand raw.toNat : Int) - scaleNumerator raw.toNat).natAbs
      * 2 ^ (scaleExponent raw.toNat + 122) :=
  tenfoldError_of_multiple (f32Units_scale10 h) (mul_f32One_eq_scaleNumerator (toNat_ne_zero_of_ne_zero h) raw.isLt)

theorem tenfoldError_scale10_le :
    tenfoldError (scale10 raw) raw.toNat ≤ 4 * 2 ^ (scaleExponent raw.toNat + 122) := by
  rw [tenfoldError_scale10 h]
  exact Nat.mul_le_mul_right _ (scaleSignificand_nearest (toNat_ne_zero_of_ne_zero h) raw.isLt).1

/-- Patterns of the result's spacing are compared by their significands; the others lie below the result's binade, whose
least value is not nearer than the result. -/
theorem tenfoldError_scale10_le_of_ne_zero (b : F32) :
    tenfoldError (scale10 raw) raw.toNat ≤ tenfoldError b raw.toNat := by
  have hn := toNat_ne_zero_of_ne_zero h
  have hone := mul_f32One_eq_scaleNumerator hn raw.isLt
  obtain ⟨-, hnearest⟩ := scaleSignificand_nearest hn raw.isLt
  rw [tenfoldError_scale10 h]
  obtain ⟨j, hj⟩ | hbelow := f32Units_cases b (scaleExponent raw.toNat + 122)
  · rw [tenfoldError_of_multiple hj hone]
    exact Nat.mul_le_mul_right _ (hnearest j)
  · exact (Nat.mul_le_mul_right _ (hnearest (2 ^ 23))).trans
      (le_tenfoldError_of_le hbelow hone (scaleNumerator_bounds hn raw.isLt).1)

theorem scaleNumerator_mod_ten_eq_zero_iff : scaleNumerator raw.toNat % 10 = 0 ↔ raw.toNat % 5 = 0 := by
  have hk := scaleExponent_le (toNat_ne_zero_of_ne_zero h) raw.isLt
  have hpow : 2 ^ (27 - scaleExponent raw.toNat) = 2 ^ (26 - scaleExponent raw.toNat) * 2 := by
    rw [← Nat.pow_succ]
    congr 1
    omega
  have hcoprime : Nat.Coprime 5 (2 ^ (26 - scaleExponent raw.toNat)) := Nat.Coprime.pow_right _ (by decide)
  rw [scaleNumerator, hpow, ← Nat.mul_assoc, show 10 = 5 * 2 from rfl, Nat.mul_mod_mul_right,
    ← Nat.dvd_iff_mod_eq_zero, ← hcoprime.dvd_mul_right, Nat.dvd_iff_mod_eq_zero]
  omega

theorem scale10_exact_iff : 10 * f32Units (scale10 raw) = raw.toNat * f32One ↔ raw.toNat % 5 = 0 := by
  rw [← scaleNumerator_mod_ten_eq_zero_iff h, f32Units_scale10 h,
    mul_f32One_eq_scaleNumerator (toNat_ne_zero_of_ne_zero h) raw.isLt, ← Nat.mul_assoc,
    Nat.mul_left_inj (Nat.two_pow_pos _).ne', scaleSignificand]
  omega

end

theorem tenfoldError_scale10_zero : tenfoldError (scale10 0) (0 : Half).toNat = 0 := by
  rw [scale10_zero]
  decide

/-- Ten times the result is less than a half away from the raw value. -/
theorem two_mul_tenfoldError_scale10_lt (raw : Half) : 2 * tenfoldError (scale10 raw) raw.toNat < f32One := by
  by_cases h : raw = 0
  · rw [h, tenfoldError_scale10_zero]
    exact Nat.two_pow_pos 149
  · have hk := scaleExponent_le (toNat_ne_zero_of_ne_zero h) raw.isLt
    have herror := tenfoldError_scale10_le h
    have hspacing : 2 ^ (scaleExponent raw.toNat + 122) ≤ 2 ^ 138 := Nat.pow_le_pow_right Nat.two_pos (by omega)
    rw [f32One]
    omega

/-- Different natural numbers are at least `f32One` apart. -/
theorem f32One_le_of_lt {a b : Nat} (h : a < b) : (a : Int) * f32One + f32One ≤ b * f32One := by
  have hmul := Nat.mul_le_mul_right f32One (Nat.succ_le_of_lt h)
  rw [Nat.succ_mul] at hmul
  exact_mod_cast hmul

theorem f32Units_scale10_lt {a b : Half} (h : a < b) : f32Units (scale10 a) < f32Units (scale10 b) := by
  have ha := two_mul_tenfoldError_scale10_lt a
  have hb := two_mul_tenfoldError_scale10_lt b
  have hgap := f32One_le_of_lt (BitVec.lt_def.mp h)
  rw [tenfoldError] at ha hb
  omega

theorem scale10_injective : Function.Injective scale10 := by
  intro a b h
  have hunits : f32Units (scale10 a) = f32Units (scale10 b) := congrArg f32Units h
  obtain hlt | heq | hgt := Nat.lt_trichotomy a.toNat b.toNat
  · exact absurd hunits (f32Units_scale10_lt (BitVec.lt_def.mpr hlt)).ne
  · exact BitVec.eq_of_toNat_eq heq
  · exact absurd hunits (f32Units_scale10_lt (BitVec.lt_def.mpr hgt)).ne'

/-! ### The statements -/

/-- Settles O20: the error is that of `m` against `N` in the result's spacing, at most 4 of the 10 tenths of it. -/
theorem scaledValueIsNearestAndExactOnMultiplesOfFive :
    Obligations.ScaledValueIsNearestAndExactOnMultiplesOfFive := by
  intro raw
  by_cases h : raw = 0
  · subst h
    refine ⟨by rw [scale10_zero]; decide, fun b _ => ?_, ?_⟩
    · exact Nat.le_trans (Nat.le_of_eq tenfoldError_scale10_zero) (Nat.zero_le _)
    · exact Nat.le_trans (Nat.le_of_eq (congrArg (2 * ·) tenfoldError_scale10_zero)) (Nat.zero_le _)
  · refine ⟨scale10_exact_iff h, fun b _ => tenfoldError_scale10_le_of_ne_zero h b, ?_⟩
    have herror := tenfoldError_scale10_le h
    rw [tenfoldError] at herror
    rw [scale10_exponent h, Nat.add_sub_cancel (m := 1)]
    omega

/-- Settles O21: results stay within half of their raw values, which are one apart. -/
theorem scalingIsStrictlyIncreasingAndRecoverable : Obligations.ScalingIsStrictlyIncreasingAndRecoverable := by
  refine ⟨fun a b => f32Units_scale10_lt, fun a b h => scale10_injective h, fun raw n hne => ?_⟩
  have herror := two_mul_tenfoldError_scale10_lt raw
  rw [tenfoldError] at herror
  obtain hlt | hlt := Nat.lt_or_gt_of_ne hne
  · have hgap := f32One_le_of_lt hlt
    omega
  · have hgap := f32One_le_of_lt hlt
    omega

end Sys2Proof.Machine

/-! PROOFS. CSUM8 as a sum of bytes modulo 256: any order, any accumulator, and every error of one byte
(41_checksum_engine.md R69, R70, R72). -/

namespace Sys2Proof.Machine

theorem dataBytes_eq (f : Frame) : dataBytes f = [f.byte 2, f.byte 3, f.byte 4, f.byte 5, f.byte 6, f.byte 7] := rfl

/-- CSUM8 is the sum of the data bytes in 8-bit arithmetic. -/
theorem csum8_eq_sum (f : Frame) : csum8 f = (dataBytes f).sum := by
  simp only [csum8_eq_ofNat, BitVec.ofNat_add, BitVec.ofNat_toNat, BitVec.setWidth_eq, dataBytes_eq, List.sum_cons,
    List.sum_nil, add_zero, add_assoc]

theorem csum8_eq_of_perm {f g : Frame} (h : (dataBytes f).Perm (dataBytes g)) : csum8 f = csum8 g := by
  rw [csum8_eq_sum, csum8_eq_sum, h.sum_eq]

/-- The same sum over the offsets of the data bytes. -/
theorem csum8_eq_sum_offsets (f : Frame) : csum8 f = ∑ k ∈ Finset.Icc (2 : Fin 10) 7, f.byte k := by
  rw [csum8_eq_sum, show Finset.Icc (2 : Fin 10) 7 = {2, 3, 4, 5, 6, 7} by decide]
  simp [dataBytes_eq]

/-- With all other data bytes equal, different bytes at one offset give different sums. -/
theorem csum8_ne_of_byte_ne {f g : Frame} {k : Fin 10} (hk : k ∈ Finset.Icc (2 : Fin 10) 7) (hne : f.byte k ≠ g.byte k)
    (heq : ∀ j, j ≠ k → f.byte j = g.byte j) : csum8 f ≠ csum8 g := by
  have hrest : ∑ j ∈ (Finset.Icc (2 : Fin 10) 7).erase k, f.byte j
      = ∑ j ∈ (Finset.Icc (2 : Fin 10) 7).erase k, g.byte j :=
    Finset.sum_congr rfl fun j hj => heq j (Finset.ne_of_mem_erase hj)
  rw [csum8_eq_sum_offsets, csum8_eq_sum_offsets, ← Finset.add_sum_erase _ _ hk, ← Finset.add_sum_erase _ _ hk, hrest]
  exact fun hsum => hne (add_right_cancel hsum)

/-! ### The statements -/

/-- Settles O10: six bytes are at most 1530, and reading the sum modulo 256 commutes with every addition. -/
theorem checksumIsSumOfDataBytesModulo256 : Obligations.ChecksumIsSumOfDataBytesModulo256 := by
  intro f sum
  refine ⟨?_, csum8_toNat f, fun l hl => ?_, fun n hn => ?_⟩
  · have h2 := (f.byte 2).isLt
    have h3 := (f.byte 3).isLt
    have h4 := (f.byte 4).isLt
    have h5 := (f.byte 5).isLt
    have h6 := (f.byte 6).isLt
    have h7 := (f.byte 7).isLt
    omega
  · rw [← List.sum_eq_foldl, hl.sum_eq, ← dataBytes_eq, csum8_eq_sum]
  · rw [BitVec.setWidth_ofNat_of_le (by omega), csum8_eq_ofNat]

/-- Settles O12: the verdict is the comparison that DECODE makes. -/
theorem checksumCompareGivesVerdictAndSum : Obligations.ChecksumCompareGivesVerdictAndSum := by
  refine ⟨fun f => ⟨csumCmp_fst f, csumCmp_snd f⟩, fun f hsync hcmp => ?_, fun f e a hres => ?_, fun _ _ => rfl⟩
  · refine decodeResult_of_csum_fails hsync fun hcsum => ?_
    simp [(csumCmp_fst f).mpr hcsum] at hcmp
  · obtain ⟨-, hne, rfl, rfl⟩ := ((resultTellsWhichCheckFailed f).2.2 e a).mp hres
    exact ⟨rfl, rfl, hne.symm⟩

/-- Settles O13: a sum does not depend on the order. -/
theorem checksumDependsOnlyOnMultisetOfDataBytes : Obligations.ChecksumDependsOnlyOnMultisetOfDataBytes :=
  fun _ _ => csum8_eq_of_perm

/-- Settles O14: the sync bytes and the transmitted checksum are unchanged, the sum is not. -/
theorem oneChangedDataByteIsDetected : Obligations.OneChangedDataByteIsDetected := by
  intro f g k p q hk2 hk7 hne heq hres
  obtain ⟨hsync, hcsum, -, -⟩ := ((resultTellsWhichCheckFailed f).1 p q).mp hres
  have hsame (j : Fin 10) (hj : j.val < 2 ∨ 7 < j.val) : f.byte j = g.byte j :=
    heq j fun hjk => by rw [hjk] at hj; omega
  have hsync' : syncCheck g = true :=
    (syncCheck_congr (hsame 0 (by decide)) (hsame 1 (by decide)) (hsame 9 (by decide))).symm.trans hsync
  have hdiff := csum8_ne_of_byte_ne (Finset.mem_Icc.mpr ⟨hk2, hk7⟩) hne heq
  have hcsum8 := hsame 8 (by decide)
  rw [hcsum8]
  exact decodeResult_of_csum_fails hsync' fun h => hdiff (by rw [hcsum, h, hcsum8])

end Sys2Proof.Machine

/-! PROOFS. What a Result of DECODE guarantees (40_frame_validator.md R66, R67, 30_encoding.md R51), on a frame and in the
pipeline. -/

namespace Sys2Proof.Machine

/-- A frame that fails a check gets one of the two failures. -/
theorem decodeResult_kind_ne_ok {f : Frame} (h : syncCheck f = false ∨ csum8 f ≠ f.byte 8) :
    (decodeResult f).kind ≠ .ok := by
  intro hkind
  cases hres : decodeResult f with
  | ok p q =>
    obtain ⟨hsync, hcsum, -, -⟩ := ((resultTellsWhichCheckFailed f).1 p q).mp hres
    simp [hsync, hcsum] at h
  | invalidHeader _ _ => simp [hres, Result.kind] at hkind
  | checksumMismatch _ _ => simp [hres, Result.kind] at hkind

/-- Only an Ok Result drives the measurement ports. -/
theorem Result.drive_measurements {r : Result} (h : r.kind ≠ .ok) : r.drive.pm25 = none ∧ r.drive.pm10 = none := by
  cases r with
  | ok p q => exact absurd rfl h
  | invalidHeader _ _ => exact ⟨rfl, rfl⟩
  | checksumMismatch _ _ => exact ⟨rfl, rfl⟩

theorem le16_inj {lo hi lo' hi' : Byte} (h : le16 lo hi = le16 lo' hi') : lo = lo' ∧ hi = hi' :=
  ⟨by rw [← le16_low_half lo hi, h, le16_low_half], by rw [← le16_high_half lo hi, h, le16_high_half]⟩

/-! ### The statements -/

/-- Settles O25: an Ok Result tells that both checks passed, and a failure drives its own ports. -/
theorem noMessageWithoutBothChecks : Obligations.NoMessageWithoutBothChecks := by
  refine fun f => ⟨fun p q hres => ?_, fun hfail => ?_⟩
  · obtain ⟨hsync, hcsum, -, -⟩ := ((resultTellsWhichCheckFailed f).1 p q).mp hres
    exact ⟨hsync, hcsum⟩
  · have hkind := decodeResult_kind_ne_ok hfail
    exact ⟨hkind, Result.drive_measurements hkind⟩

/-- Settles O27: the reserved bytes are in no sync byte and in no measurement. -/
theorem reservedBytesEnterOnlyTheChecksum : Obligations.ReservedBytesEnterOnlyTheChecksum :=
  fun _ _ _ hsync => decodeResult_of_checks_pass hsync rfl

/-- Settles O28: SCALE10 is injective, and so is LE16. -/
theorem messageDeterminesMeasurementBytes : Obligations.MessageDeterminesMeasurementBytes := by
  intro f g p q hf hg
  obtain ⟨-, -, hp, hq⟩ := ((resultTellsWhichCheckFailed f).1 p q).mp hf
  obtain ⟨-, -, hp', hq'⟩ := ((resultTellsWhichCheckFailed g).1 p q).mp hg
  obtain ⟨h2, h3⟩ := le16_inj (scale10_injective (hp.symm.trans hp'))
  obtain ⟨h4, h5⟩ := le16_inj (scale10_injective (hq.symm.trans hq'))
  exact ⟨h2, h3, h4, h5⟩

/-- Settles O45: every Result in the machine is DECODE's of some frame, whose raw values and bytes it holds. -/
theorem pipelineResultsMeanWhatTheySay : Obligations.PipelineResultsMeanWhatTheySay := by
  intro s r hinv hr
  obtain ⟨f, rfl⟩ : r.Produced := hr.elim (hinv.slots r) (hinv.out r)
  refine ⟨fun p q hres => ?_, fun e a hres => ?_⟩
  · obtain ⟨-, -, rfl, rfl⟩ := ((resultTellsWhichCheckFailed f).1 p q).mp hres
    exact ⟨scale10_msb _, scale10_msb _, scale10_toNat_le _, scale10_toNat_le _, _, _, f32Div_scale _,
      f32Div_scale _⟩
  · obtain ⟨-, -, hne⟩ := checksumCompareGivesVerdictAndSum.2.2.1 f e a hres
    exact hne

end Sys2Proof.Machine

/-! PROOFS. The output ports (10_state.md R23, R24, 30_encoding.md R56) and the frame window (20_memory.md R28, R30). -/

namespace Sys2Proof.Machine

/-! ### The output ports -/

theorem State.outPorts_of_some {s : State} {r : Result} (h : s.out = some r) : s.outPorts = r.drive := by
  rw [State.outPorts, h]

theorem State.outPorts_of_none {s : State} (h : s.out = none) : s.outPorts = OutPorts.silent := by
  rw [State.outPorts, h]

theorem Result.drive_status (r : Result) : r.drive.status = some r.kind.code := by
  cases r <;> rfl

theorem ResultKind.code_ne_reserved (k : ResultKind) : k.code ≠ 0b11 := by
  cases k <;> decide

theorem readStatus_code (k : ResultKind) : readStatus k.code = .ok k := by
  cases k <;> rfl

/-- Settles O51: one way of driving the ports for each Result. -/
theorem resultDrivesTheSelectedPortsOnly : Obligations.ResultDrivesTheSelectedPortsOnly :=
  fun _ => ⟨State.outPorts_of_none, fun _ _ => State.outPorts_of_some, fun _ _ => State.outPorts_of_some,
    fun _ _ => State.outPorts_of_some⟩

/-- Settles O52: the code driven is that of a tag, and the three tags' codes leave 0b11 over. -/
theorem reservedStatusIsNeverDriven : Obligations.ReservedStatusIsNeverDriven := by
  refine ⟨fun s => ?_, fun r => readStatus_code r.kind, by decide⟩
  cases hout : s.out with
  | none => simp [State.outPorts_of_none hout, OutPorts.silent]
  | some r =>
    rw [State.outPorts_of_some hout, Result.drive_status]
    exact fun h => r.kind.code_ne_reserved (Option.some.inj h)

/-! ### The frame window -/

/-- In canonical form no address from 10 on is listed. -/
theorem Memory.read_of_ge {m : Memory} (hwf : m.wf = true) {a : Nat} (ha : 10 ≤ a) :
    m.read a = .error (.outsideWindow a) := by
  have haddr : ∀ c ∈ m, c.1 < 10 := by simpa using (Bool.and_eq_true_iff.mp hwf).2
  have hlookup : m.lookup a = none := by
    rw [List.lookup_eq_none_iff]
    intro c hc
    have hlt := haddr c hc
    simp only [bne_iff_ne, ne_eq]
    omega
  rw [Memory.read, hlookup]

theorem State.window_of_frame {s : State} {w : FrameWord} (h : s.sample = .frame w) :
    s.window = windowOf (Frame.unpack w) := by
  rw [State.window, h]

theorem State.window_of_no_frame {s : State} (h : ∀ w, s.sample ≠ .frame w) : s.window = [] := by
  rw [State.window]
  cases hs : s.sample with
  | reset => rfl
  | idle => rfl
  | frame w => exact absurd hs (h w)

/-- Settles O53: the window lists the ten lanes in a cycle that accepts a frame, and nothing in any other. -/
theorem windowHasTheTenBytesOfTheFrame : Obligations.WindowHasTheTenBytesOfTheFrame := by
  refine fun s => ⟨s.window_wf, fun w hs a => ⟨fun ha => ?_, Memory.read_of_ge s.window_wf⟩, fun hs a => ?_⟩
  · rw [State.readByte, State.window_of_frame hs]
    exact (windowOf_read _ ⟨a, ha⟩).trans (congrArg Except.ok (Frame.unpack_byte w ⟨a, ha⟩))
  · rw [State.readByte, State.window_of_no_frame hs]
    rfl

end Sys2Proof.Machine

/-! PROOFS. A table word on the port (30_encoding.md section E1, log 4): its bytes are the lanes of its port value, so the
decoder on bytes reads what the next step runs. -/

namespace Sys2Proof

/-- The lane at bit `k` of a number's port value is that byte of the number. -/
theorem extractLsb'_ofNat_byte (x : Nat) {k : Nat} (hk : k + 8 ≤ 80) :
    (BitVec.ofNat 80 x).extractLsb' k 8 = BitVec.ofNat 8 (x / 2 ^ k) := by
  refine BitVec.eq_of_toNat_eq ?_
  rw [BitVec.extractLsb'_toNat, BitVec.toNat_ofNat, BitVec.toNat_ofNat, Nat.shiftRight_eq_div_pow,
    ← Nat.mod_mul_right_div_self, ← Nat.mod_mul_right_div_self, ← Nat.pow_add,
    Nat.mod_mod_of_dvd _ (Nat.pow_dvd_pow 2 hk)]

theorem Frame.bytes_eq_map_byte (f : Frame) : f.bytes = (List.finRange 10).map f.byte := rfl

theorem tableBytes_length (nbits w : Nat) : (tableBytes nbits w).length = max 10 ((nbits + 7) / 8) := by
  rw [tableBytes, List.length_map, List.length_range]

/-- Ten table bytes are the lanes of the port value of the table word. -/
theorem tableBytes_eq_bytes {nbits w : Nat} (h : (tableBytes nbits w).length = 10) :
    tableBytes nbits w = (Frame.unpack (tableWord nbits w)).bytes := by
  rw [tableBytes_length] at h
  rw [tableBytes, h, Frame.bytes_eq_map_byte, ← List.map_coe_finRange_eq_range, List.map_map]
  refine List.map_congr_left fun k _ => ?_
  rw [Frame.unpack_byte, tableWord, extractLsb'_ofNat_byte _ (by omega)]
  rfl

theorem decodeTableWord_eq {nbits w : Nat} {i : Instr} (h : decodeTableWord nbits w = some i) :
    decode (tableWord nbits w) = i := by
  have hlen : (tableBytes nbits w).length = 10 := by
    by_contra hne
    simp [decodeTableWord, (onlyTenBytesAreAFrame _).2 hne] at h
  rw [decodeTableWord, tableBytes_eq_bytes hlen, decodeBytes_bytes, Frame.pack_unpack] at h
  exact Option.some.inj h

theorem Machine.State.sample_withFetchWord (s : State) (nbits w : Nat) :
    (s.withFetchWord nbits w).sample = .frame (tableWord nbits w) := rfl

/-- Settles O37: the placed word is accepted, and the decoder reads the same instruction from it as from its bytes. -/
theorem fetchWordIsRunByTheNextStep : Obligations.FetchWordIsRunByTheNextStep := by
  intro s nbits w i h
  refine ⟨?_, rfl, rfl⟩
  rw [Machine.step_of_frame (s.sample_withFetchWord nbits w), decodeTableWord_eq h]

end Sys2Proof
